-- ==== Sys2Proof/Word.lean ====
section
/-! DEFINITION. The words of the shed line: bytes, two-byte fields and station numbers.

What the manual treats as bits is a bit vector: payload bytes, two-byte fields (16-flag summaries among them) and
station numbers as a frame header carries them. Powers, times, levels and counts are numbers (00_scope.md Table 2). -/

namespace Sys2Proof

/-- One byte of a payload or of the configuration image. -/
abbrev Byte := BitVec 8

/-- A two-byte field, most significant byte first on the line (R181); also a 16-flag alarm summary. -/
abbrev Half := BitVec 16

/-- A station number as the frame header carries it, 0 to 63 (00_scope.md 0.8). -/
abbrev Station := BitVec 6

/-- A load's priority, 0 (highest) to 3 (00_scope.md 0.9). -/
abbrev Tier := Fin 4

end Sys2Proof
end

