-- ==== Sys2Proof/Syntax.lean ====
section
/-! DEFINITION. The commands: one constructor of `Instr` per row of spec/opcode_table.json.

The table gives no row any operand bits, so the operands are read from the rule each row names (assumption log 4):
a frame carries its sender's station number and its payload bytes as they stand on the line, an input event carries
the level or sample the pin shows, a debounced input's event says whether it is the raw level that changes or the stable
time that is over, and a timer event names whose timer it is. -/

namespace Sys2Proof

/-- The two beams of a traffic gate (spec 04, opening text). -/
inductive Beam where
  | a
  | b
  deriving DecidableEq, Repr

/-- The two gas channels (spec 08). -/
inductive Gas where
  | co
  | no2
  deriving DecidableEq, Repr

/-- The three override stacks (R137). -/
inductive StackId where
  | light
  | heat
  | vent
  deriving DecidableEq, Repr

/-- The source kind of an override entry (Table 34). -/
inductive SourceKind where
  | changeover
  | directive
  | manual
  deriving DecidableEq, Repr

/-- What happens at a debounced input (R45, R90, R93; assumption log 11): its raw level changes, or the raw level has held
for the stable time and becomes the debounced one. -/
inductive InputEvent where
  | raw
  | stable
  deriving DecidableEq, Repr

/-- What the part reads during a start sequence and first samples at its end (R174 steps 2, 3 and 6). -/
structure StartReading where
  /-- The five station-number straps. -/
  straps : BitVec 5
  /-- The bytes the setting memory answered, from byte 0 on; fewer than 256 when it failed to answer. -/
  image : List Byte
  /-- First sample of beam A: blocked or not. -/
  beamA : Bool
  /-- First sample of beam B: blocked or not. -/
  beamB : Bool
  /-- First samples of the four presence inputs: asserted or not. -/
  presence : Vector Bool 4
  /-- The MANUAL input as the sequence ends: asserted or not (R90). -/
  manual : Bool
  /-- First raw sample of the SHIFT input: pressed or not (R45). -/
  shift : Bool
  /-- First raw samples of the door contacts, door 1 first: open or not (R93). -/
  contacts : Vector Bool 8
  /-- First raw samples of the trailer sensors, door 1 first: present or not (R93). -/
  trailers : Vector Bool 8
  /-- First temperature reading in 0.1 °C, or nothing (R106). -/
  temperature : Option Int
  /-- First CO sample in ppm, or the open-circuit code (R120). -/
  co : Option Nat
  /-- First NO₂ sample in 0.1 ppm, or the open-circuit code (R120). -/
  no2 : Option Nat
  deriving DecidableEq, Repr

/-- Twelve recessive bit times: the whole idle count of R3, `true` being recessive. -/
def twelveRecessive : List Bool := List.replicate 12 true

/-- The commands of spec/opcode_table.json, in the table's order. An operand with a default may be left out: the idle count
then runs from 0 to its end, the bit error meets the frame's first bit, and the input event is the debounced change. -/
inductive Instr where
  | powerOnReset
  | startSequenceEnd (reading : StartReading)
  /-- `bits` are the line levels read in HUNT since its idle count was last written; `true` is recessive. -/
  | lineIdle (bits : List Bool := twelveRecessive)
  | transmitAttemptStart
  /-- `lineBit` counts the bits of the frame as sent, stuff bits included, from 0 after the start delimiter. -/
  | lostArbitration (lineBit : Nat)
  /-- `lineBit` counts the bits of the frame as sent, as for `lostArbitration`. -/
  | bitError (lineBit : Nat := 0)
  | abortEnd
  | transmissionComplete
  /-- `bits` are the line levels read since the receive assembler's last bit; `true` is recessive. -/
  | frameDiscarded (bits : List Bool)
  | beaconReceived (sender : Station) (payload : Vector Byte 24)
  | handoffReceived (sender : Station) (payload : Vector Byte 4)
  | shiftReceived (sender : Station) (payload : Vector Byte 2)
  | alarmReceived (sender : Station) (payload : Vector Byte 4)
  | replyReceived (sender : Station) (payload : List Byte)
  | lightSet (sender : Station) (payload : Vector Byte 9)
  | heatHold (sender : Station) (payload : Vector Byte 9)
  | heatSetpoint (sender : Station) (payload : Vector Byte 9)
  | heatBoost (sender : Station) (payload : Vector Byte 9)
  | ventPurge (sender : Station) (payload : Vector Byte 9)
  | ventStop (sender : Station) (payload : Vector Byte 9)
  | release (sender : Station) (payload : Vector Byte 9)
  | alarmAck (sender : Station) (payload : Vector Byte 9)
  | restart (sender : Station) (payload : Vector Byte 9)
  | queryStatus (sender : Station) (payload : Vector Byte 3)
  | queryPeer (sender : Station) (payload : Vector Byte 3)
  | queryShift (sender : Station) (payload : Vector Byte 3)
  | queryDoor (sender : Station) (payload : Vector Byte 3)
  | queryOverrides (sender : Station) (payload : Vector Byte 3)
  | queryLoads (sender : Station) (payload : Vector Byte 3)
  | beaconScheduling
  | entryStale (entry : Fin 32)
  | entryLost (entry : Fin 32)
  | listenTimerExpiry
  | isolationTimerExpiry
  | timebaseLost
  | timebaseRecovered
  | shiftInputChange (pressed : Bool) (event : InputEvent := .stable)
  | changeoverTimerExpiry
  | lockoutTimerExpiry
  | gateBeamChange (beam : Beam)
  | invalidTransition
  | gateFaultClear
  | presenceAsserted (zone : Fin 4)
  | presenceReleased (zone : Fin 4)
  | zoneHoldExpiry (zone : Fin 4)
  | vacancyCorrection
  | leadInTimerExpiry
  | vacatingTimerExpiry
  | levelRiseStep (channel : Fin 4)
  | manualAsserted (event : InputEvent := .stable)
  | manualReleased (event : InputEvent := .stable)
  | doorContactChange (door : Fin 8) (isOpen : Bool) (event : InputEvent := .stable)
  | doorTrailerChange (door : Fin 8) (present : Bool) (event : InputEvent := .stable)
  | doorHoldExpiry (door : Fin 8)
  | doorFaultClear (door : Fin 8)
  | boostRecoveryExpiry
  | temperatureReading (value : Option Int)
  | stageMinOnExpiry (stage : Fin 4)
  | stageMinOffExpiry (stage : Fin 4)
  | gasSample (gas : Gas) (value : Option Nat)
  | coastTimerExpiry (fan : Fin 2)
  | rampTimerExpiry (fan : Fin 2)
  /-- The entry is named by its stack and its identity (R138): source kind and origin. -/
  | overrideExpiry (stack : StackId) (source : SourceKind) (origin : Option Station)
  | pendingIncreaseExpiry
  | meterPulse
  | meterCheck
  | startDelimiter
  | directiveDropped (sender : Station) (payload : Vector Byte 9)
  | queryDropped (sender : Station) (payload : Vector Byte 3)
  | doorSettlingEnds (door : Fin 8) (isOpen : Bool) (present : Bool)
  | openSecondsAdvance (door : Fin 8)
  deriving DecidableEq, Repr

end Sys2Proof
end

