-- ==== Sys2Proof/Config.lean ====
section
/-! DEFINITION. The configured values of a station: what the image of the setting memory, or the built-in defaults,
fix from one start sequence to the next (R174 step 5, Table 52).

The values here are as taken, after clamping and rounding; `Machine/Image.lean` reads them from the 256 bytes.
The spec leaves no result of a command open, so this file needs no constant without a body. -/

namespace Sys2Proof

/-- The class of a profile page (Table 10). -/
inductive PageClass where
  | working
  | idle
  deriving DecidableEq, Repr

/-- One profile page (Table 10). -/
structure Page where
  pageClass : PageClass
  /-- Work levels of channels 1 to 4, in percent. -/
  work : List Nat
  /-- Standby levels of channels 1 to 4, in percent. -/
  standby : List Nat
  changeoverLevel : Nat
  occupied : Int
  unoccupied : Int
  /-- Minimum ventilation speed, a multiple of 5. -/
  minVent : Nat
  /-- Changeover duration in seconds. -/
  changeover : Nat
  next : Fin 4
  deriving DecidableEq, Repr

/-- Output action mode of a lighting channel (R80). -/
inductive ChannelMode where
  | offForced
  | follow
  | followInverted
  | fullForced
  deriving DecidableEq, Repr

/-- Configured part of a lighting channel (Table 16). -/
structure ChannelConfig where
  rated : Nat
  mode : ChannelMode
  deriving DecidableEq, Repr

/-- Image header values (Table 42). -/
structure HeaderConfig where
  nCfg : Nat
  group : Byte
  startPage : Fin 4
  /-- Own beacon interval in ms. -/
  interval : Nat
  /-- Shed demand cap C. -/
  cap : Nat
  deriving DecidableEq, Repr

/-- Lighting section (R76, R79, R85). Times in seconds, fade rate in percent per second. -/
structure LightingConfig where
  channels : List ChannelConfig
  leadIn : Nat
  vacatingHold : Nat
  fade : Nat
  deriving DecidableEq, Repr

/-- Door section (R92). Times in seconds; one curtain and one dock-light rating per configured door. -/
structure DoorConfig where
  holdLimit : Nat
  recovery : Nat
  curtains : List Nat
  docks : List Nat
  deriving DecidableEq, Repr

/-- One heater stage (Table 23). Times in seconds. -/
structure StageConfig where
  rated : Nat
  minOn : Nat
  minOff : Nat
  deriving DecidableEq, Repr

/-- Temperature and stages sections (Table 23). -/
structure HeatConfig where
  criticalLow : Int
  high : Int
  hysteresis : Nat
  boostDelta : Nat
  spacing : Nat
  /-- One entry per configured stage, stage 1 first. -/
  stages : List StageConfig
  deriving DecidableEq, Repr

/-- One fan (R123). Coast time in seconds, ramp period in ms. -/
structure FanConfig where
  rated : Nat
  flow : Nat
  coast : Nat
  ramp : Nat
  deriving DecidableEq, Repr

/-- One gas channel (Table 27). -/
structure GasConfig where
  fullScale : Nat
  action : Nat
  critical : Nat
  band : Nat
  deriving DecidableEq, Repr

/-- Gas, fans and balancing sections (Table 27, R123, R132). -/
structure AirConfig where
  co : GasConfig
  no2 : GasConfig
  assertWindow : Nat
  clearWindow : Nat
  actionSpeed : Nat
  assistSpeed : Nat
  fan1 : FanConfig
  fan2 : FanConfig
  deadband : Nat
  relief : Nat
  stepLimit : Nat
  deriving DecidableEq, Repr

/-- Gate section (R58, R69, R70). Spacing in mm, times in seconds. -/
structure GateConfig where
  present : Bool
  spacing : Nat
  zoneHold : Nat
  vacancy : Nat
  deriving DecidableEq, Repr

/-- Meter section (R169). -/
structure MeterConfig where
  weight : Nat
  creep : Nat
  margin : Nat
  deriving DecidableEq, Repr

/-- Alarm section (R149, R151): a flag of `latchedModes` is set for LATCHED mode. -/
structure AlarmConfig where
  latchedModes : Half
  annunciate : Half
  assertedHigh : Bool
  deriving DecidableEq, Repr

/-- All configured values, held until the next start sequence (spec 11, state of the start block). -/
structure Config where
  header : HeaderConfig
  /-- Pages 0 to 3. -/
  pages : List Page
  lighting : LightingConfig
  doors : DoorConfig
  heat : HeatConfig
  air : AirConfig
  gate : GateConfig
  meter : MeterConfig
  alarms : AlarmConfig
  deriving DecidableEq, Repr

end Sys2Proof
end

