-- ==== Sys2Proof/Machine/Defaults.lean ====
section
/-! DEFINITION. The built-in defaults taken on a DEFAULTED start outcome (R44, R176), and the two figures derived from
the configuration that several blocks use. -/

namespace Sys2Proof

/-- The door count (R92): the ratings are held for the configured doors only. -/
def Config.doorCount (c : Config) : Nat := c.doors.curtains.length

/-- The isolated share S_iso = floor(C / N_cfg) (R37). -/
def Config.isolatedShare (c : Config) : Nat := c.header.cap / c.header.nCfg

/-- The built-in default page `n`, whose next page is itself (Table 12). -/
def Page.builtIn (n : Fin 4) : Page :=
  { pageClass := .working, work := [100, 100, 100, 100], standby := [100, 100, 100, 100], changeoverLevel := 100,
    occupied := 180, unoccupied := 100, minVent := 0, changeover := 0, next := n }

/-- The built-in defaults (R176, Tables 12, 23, 27 and 43, R169).
The hold limit, the boost recovery time, the deadband and the relief have no stated default: 0 here, a DESIGN CHOICE
that nothing on defaults can show (assumption log 16). -/
def Config.builtIn : Config where
  header := { nCfg := 1, group := 0, startPage := 0, interval := 1000, cap := 100 }
  pages := [Page.builtIn 0, Page.builtIn 1, Page.builtIn 2, Page.builtIn 3]
  lighting := { channels := List.replicate 4 { rated := 0, mode := .follow }, leadIn := 30, vacatingHold := 60, fade := 20 }
  doors := { holdLimit := 0, recovery := 0, curtains := [], docks := [] }
  heat := { criticalLow := 50, high := 400, hysteresis := 10, boostDelta := 0, spacing := 10, stages := [] }
  air :=
    { co := { fullScale := 500, action := 35, critical := 100, band := 10 }
      no2 := { fullScale := 200, action := 30, critical := 50, band := 5 }
      assertWindow := 4, clearWindow := 8, actionSpeed := 50, assistSpeed := 50
      fan1 := { rated := 0, flow := 0, coast := 30, ramp := 500 }
      fan2 := { rated := 0, flow := 0, coast := 30, ramp := 500 }
      deadband := 0, relief := 0, stepLimit := 25 }
  gate := { present := false, spacing := 600, zoneHold := 30, vacancy := 300 }
  meter := { weight := 10, creep := 60, margin := 50 }
  alarms := { latchedModes := 0xFFFF, annunciate := 0xFFFF, assertedHigh := true }

end Sys2Proof
end

