-- ==== Sys2Proof/Machine/State.lean ====
section
/-! DEFINITION. The state of the station, block by block (00_scope.md Table 1), the value of every piece right after
power-on reset, and the reasons a step can stop.

Times are moments on the own timebase in ms (`State.clock`); a timer that is stopped is `none`.
Register values the spec does not give before the start sequence ends are named in assumption log 7. -/

namespace Sys2Proof.Machine

/-! ## Line engine (spec 01) -/

/-- Engine states (Table 5). -/
inductive EngineState where
  | held
  | hunt
  | idle
  | receive
  | send
  | abort
  deriving DecidableEq, Repr

/-- The receive assembler (spec 01, state of the line engine): destuffed bits in the order received, the current run
of equal line bits with its level, the announced payload length in bytes, and the recessive bit times read after the
last frame bit (R10). -/
structure Assembler where
  bits : List Bool
  run : Nat
  level : Bool
  length : Option Nat
  tail : Nat
  deriving DecidableEq, Repr

/-- The assembler right after a start delimiter: empty, the dominant delimiter counted in the run (R3). -/
def Assembler.start : Assembler := { bits := [], run := 1, level := false, length := none, tail := 0 }

/-- Direction of a crossing (R65). -/
inductive Travel where
  | up
  | down
  deriving DecidableEq, Repr

/-- Speed class of a crossing (R61). -/
inductive SpeedClass where
  | fast
  | normal
  | slow
  | unknown
  deriving DecidableEq, Repr

/-- The fields of a HANDOFF (R65). -/
structure Handoff where
  direction : Travel
  speed : SpeedClass
  count : Byte
  transit : Nat
  deriving DecidableEq, Repr

/-- What a transmit queue item holds (R16); a BEACON's fields are supplied at the attempt start (R5). -/
inductive Bulletin where
  | alarm (active latched : Half)
  | handoff (h : Handoff)
  | shift (epoch : Byte) (page : Fin 4)
  | beacon
  | reply (requester : Station) (kind index : Byte) (ok : Bool) (body : List Byte)
  deriving DecidableEq, Repr

/-- A transmit queue slot: its content, the payload on the line while it is in flight, and the content that renews
it (R17). -/
structure Slot where
  content : Bulletin
  sending : Option (List Byte)
  renewed : Option Bulletin
  deriving DecidableEq, Repr

/-- The line engine's state (spec 01). The queue is in arrival order, earliest first. -/
structure Line where
  engine : EngineState
  idle : Nat
  assembler : Assembler
  queue : List Slot
  failures : Nat
  /-- Active and latched summary of the last ALARM completed. -/
  lastAlarm : Option (Half × Half)
  /-- The cause of LINE_FAULT (R22, R8). -/
  lineFault : Bool
  deriving DecidableEq, Repr

/-! ## Peer view (spec 02) -/

/-- Link states (R33 to R36). -/
inductive LinkState where
  | listen
  | joined
  | isolated
  | silent
  deriving DecidableEq, Repr

/-- Entry states (R26). -/
inductive EntryState where
  | absent
  | fresh
  | stale
  | lost
  | self
  deriving DecidableEq, Repr

/-- Shift phase (Table 9). -/
inductive Phase where
  | changeover
  | steady
  deriving DecidableEq, Repr

/-- Gate status (Table 15). -/
inductive GateStatus where
  | none
  | ok
  | fault
  deriving DecidableEq, Repr

/-- Gas class (R122). -/
inductive GasClass where
  | none
  | action
  | critical
  deriving DecidableEq, Repr

/-- Bay lighting state (R76). -/
inductive BayState where
  | vacant
  | leadIn
  | occupied
  | vacating
  deriving DecidableEq, Repr

/-- Own requests or a peer's, one per tier (R155). -/
structure Requests where
  q0 : Nat
  q1 : Nat
  q2 : Nat
  q3 : Nat
  deriving DecidableEq, Repr

/-- The fields of a BEACON as taken (Table 8, R182). -/
structure BeaconFields where
  sequence : Byte
  /-- Declared interval in ms, 500 to 5000. -/
  interval : Nat
  link : LinkState
  epochKnown : Bool
  phase : Phase
  /-- The page field as carried; a value above 3 is stored (R182). -/
  page : BitVec 4
  epoch : Byte
  occupancy : Nat
  uncertain : Bool
  available : Bool
  gate : GateStatus
  gas : GasClass
  bay : BayState
  gateCount : Byte
  temperature : Option Int
  netFlow : Int
  openUnsealed : Nat
  draw : Nat
  requests : Requests
  deriving DecidableEq, Repr

/-- A view entry (Table 7). `heardAt` is the moment of the last beacon's acceptance. -/
structure PeerEntry where
  state : EntryState
  heardAt : Nat
  beacon : Option BeaconFields
  alarms : Option Half
  deriving DecidableEq, Repr

/-- An ABSENT entry with all fields absent (R41). -/
def PeerEntry.empty : PeerEntry := { state := .absent, heardAt := 0, beacon := none, alarms := none }

/-- The set of silent causes (R36). -/
structure SilentCauses where
  duplicate : Bool
  timebase : Bool
  defaulted : Bool
  strapRange : Bool
  deriving DecidableEq, Repr

/-- One silent cause. -/
inductive SilentCause where
  | duplicate
  | timebase
  | defaulted
  | strapRange
  deriving DecidableEq, Repr

/-- The peer view's state (spec 02). -/
structure View where
  /-- 32 entries, by station number. -/
  entries : List PeerEntry
  sequence : Byte
  nextBeacon : Nat
  link : LinkState
  causes : SilentCauses
  listenDue : Option Nat
  heard : Bool
  isolationDue : Option Nat
  timebaseLost : Bool
  /-- The moment of the last loss, or of its renewal during recovery (R40). -/
  timebaseMark : Nat
  deriving DecidableEq, Repr

/-! ## Shift tracker (spec 03) -/

/-- An input's record (R45, R90, R93): the debounced level, `none` until the first one after the start sequence, the raw
level, and the moment from which the raw level has held, its last change. -/
structure Debounced where
  level : Option Bool
  raw : Bool
  since : Nat
  deriving DecidableEq, Repr

/-- The last-shift summary (R55). Doors are cycles and open seconds, door 1 first. -/
structure ShiftSummary where
  epoch : Byte
  energy : Nat
  peak : Nat
  crossings : Nat
  doors : List (Nat × Nat)
  deriving DecidableEq, Repr

/-- The shift tracker's state (Table 9, Table 13). `epoch = none` is UNKNOWN. -/
structure Shift where
  epoch : Option Byte
  page : Fin 4
  phase : Phase
  changeoverDue : Option Nat
  lockoutDue : Option Nat
  input : Debounced
  energy : Nat
  peak : Nat
  crossings : Nat
  summary : Option ShiftSummary
  deriving DecidableEq, Repr

/-! ## Traffic unit (spec 04) -/

/-- A presence zone: its input and the start of its zone timer while that runs (R69). -/
structure Zone where
  asserted : Bool
  releasedAt : Option Nat
  deriving DecidableEq, Repr

/-- The traffic unit's state (Table 15). -/
structure Traffic where
  gate : GateStatus
  /-- TRACKING when set, WAITING when clear. -/
  tracking : Bool
  beamA : Bool
  beamB : Bool
  position : Int
  first : Option Nat
  second : Option Nat
  clean : Bool
  /-- Times of earlier invalid transitions, oldest first. -/
  invalid : List Nat
  quietSince : Option Nat
  gateCount : Byte
  lowerSeen : Option Byte
  count : Nat
  uncertain : Bool
  /-- Zones 1 to 4. -/
  zones : List Zone
  vacancySince : Option Nat
  deriving DecidableEq, Repr

/-! ## Lighting unit (spec 05) -/

/-- A lighting channel (Table 16), but for its configured fields. `rise` is the level and moment a rise began. -/
structure Channel where
  desired : Nat
  tier : Option Tier
  granted : Nat
  target : Nat
  present : Nat
  rise : Option (Nat × Nat)
  deriving DecidableEq, Repr

/-- A channel at the end of a start sequence: dark, nothing chosen (R91). -/
def Channel.dark : Channel := { desired := 0, tier := none, granted := 0, target := 0, present := 0, rise := none }

/-- A dock light (Table 19), but for its rated power. -/
structure DockLight where
  demanded : Bool
  granted : Bool
  output : Bool
  deriving DecidableEq, Repr

/-- A dock light after a start: not demanded, not granted, OFF (R91). -/
def DockLight.off : DockLight := { demanded := false, granted := false, output := false }

/-- The lighting unit's state (spec 05). -/
structure Lighting where
  bay : BayState
  leadInDue : Option Nat
  vacatingDue : Option Nat
  /-- Channels 1 to 4. -/
  channels : List Channel
  /-- One per configured door, door 1 first. -/
  docks : List DockLight
  manual : Debounced
  deriving DecidableEq, Repr

/-! ## Door unit (spec 06) -/

/-- Door states (Table 20). -/
inductive DoorState where
  | closed
  | openSealed
  | openUnsealed
  | held
  | fault
  deriving DecidableEq, Repr

/-- A door record (Table 20). The dock light output field is the lighting unit's record (R89).
`contact` is OPEN when its level is true, `trailer` PRESENT when its level is true.
`openMark` is the moment up to which open time has been gathered into the remainder, while the door is open. -/
structure Door where
  state : DoorState
  settling : Bool
  contact : Debounced
  trailer : Debounced
  openSince : Option Nat
  holdSince : Option Nat
  /-- Times of recent debounced changes, oldest first. -/
  chatter : List Nat
  stableSince : Option Nat
  curtainDemanded : Bool
  curtainGranted : Bool
  curtainOn : Bool
  cycles : Nat
  openSeconds : Nat
  remainder : Nat
  openMark : Option Nat
  deriving DecidableEq, Repr

/-- The door unit's state (spec 06). -/
structure Doors where
  /-- One per configured door, door 1 first. -/
  records : List Door
  openUnsealed : Nat
  boost : Bool
  recoveryDue : Option Nat
  deriving DecidableEq, Repr

/-! ## Heat unit (spec 07) -/

/-- Source of the base setpoint (R111). -/
inductive SetpointSource where
  | occupied
  | unoccupied
  | override
  deriving DecidableEq, Repr

/-- Demand of a heater stage (R113). -/
inductive StageDemand where
  | none
  | called
  | holding
  deriving DecidableEq, Repr

/-- A stage record (Table 24). -/
structure Stage where
  on : Bool
  since : Nat
  call : Bool
  demand : StageDemand
  tier : Option Tier
  granted : Bool
  deriving DecidableEq, Repr

/-- The heat unit's state (spec 07). `last = none` is no reading. -/
structure Heat where
  last : Option Int
  fault : Bool
  freeze : Bool
  overheat : Bool
  setpoint : Int
  source : SetpointSource
  effective : Int
  /-- One per configured stage, stage 1 first. -/
  stages : List Stage
  nextReading : Nat
  deriving DecidableEq, Repr

/-! ## Air unit (spec 08) -/

/-- The last sample of a gas channel (Table 28). -/
inductive GasReading where
  | value (n : Nat)
  | faulty
  deriving DecidableEq, Repr

/-- One level of a gas channel with its run (R121). -/
structure GasLevel where
  asserted : Bool
  run : Nat
  deriving DecidableEq, Repr

/-- A gas channel record (Table 28). -/
structure GasChannel where
  last : GasReading
  fault : Bool
  clearRun : Nat
  action : GasLevel
  critical : GasLevel
  nextSample : Nat
  deriving DecidableEq, Repr

/-- A gas channel after a start, before its first sample (R136). -/
def GasChannel.fresh : GasChannel :=
  { last := .value 0, fault := false, clearRun := 0, action := ⟨false, 0⟩, critical := ⟨false, 0⟩, nextSample := 0 }

/-- Direction of air, as requested (Table 30). -/
inductive AirDir where
  | supply
  | exhaust
  deriving DecidableEq, Repr

/-- Fan states (Table 30). -/
inductive FanState where
  | stopped
  | running
  | coasting
  deriving DecidableEq, Repr

/-- Ruling source of a fan, numbered as Table 31 numbers them. -/
inductive FanSource where
  | none
  | critical
  | action
  | vent
  | assist
  | minimum
  | balancing
  deriving DecidableEq, Repr

/-- A fan record (Table 30). `direction = none` is UNKNOWN. -/
structure Fan where
  state : FanState
  direction : Option AirDir
  coastDue : Option Nat
  source : FanSource
  requested : AirDir
  desired : Nat
  tier : Option Tier
  granted : Nat
  target : Nat
  present : Nat
  rampDue : Option Nat
  deriving DecidableEq, Repr

/-- A fan after a start, before its coast timer is started (R136). R136 gives the ruling source, the desired speed and the
tier only as resolved at the end of the start sequence: until then ruling source none, requested direction SUPPLY, desired
speed 0 and no tier are DESIGN CHOICE (assumption log 7). -/
def Fan.fresh : Fan :=
  { state := .coasting, direction := none, coastDue := none, source := .none, requested := .supply, desired := 0,
    tier := none, granted := 0, target := 0, present := 0, rampDue := none }

/-- The air unit's state (spec 08). -/
structure Air where
  co : GasChannel
  no2 : GasChannel
  gasClass : GasClass
  fan1 : Fan
  fan2 : Fan
  /-- The balancing flow (R132). -/
  balancing : Int
  /-- The balance-available flag (R132). -/
  available : Bool
  netFlow : Int
  deriving DecidableEq, Repr

/-! ## Override unit and alarm unit (spec 09) -/

/-- Effects of override entries (Table 35). -/
inductive Effect where
  /-- LIGHT: a level and the channels it applies to, bit 0 for channel 1. -/
  | level (percent : Nat) (channels : BitVec 4)
  | setpoint (t : Int)
  | boost (delta : Nat)
  | hold
  | purge (dir : AirDir) (speed : Nat)
  | stop
  deriving DecidableEq, Repr

/-- An override entry (Table 34). Arrival order is the order in the stack's list. -/
structure OverrideEntry where
  source : SourceKind
  origin : Option Station
  precedence : Nat
  effect : Effect
  expiry : Option Nat
  deriving DecidableEq, Repr

/-- The three stacks, each earliest arrival first (R137). -/
structure Overrides where
  light : List OverrideEntry
  heat : List OverrideEntry
  vent : List OverrideEntry
  deriving DecidableEq, Repr

/-- The alarm unit's summaries (R149): condition n of Table 37 in bit 15 − n (R181). -/
structure Alarms where
  active : Half
  latched : Half
  deriving DecidableEq, Repr

/-! ## Allocator (spec 10) -/

/-- Grants of tiers 1 to 3 (R160, R161). -/
structure Grants where
  g1 : Nat
  g2 : Nat
  g3 : Nat
  deriving DecidableEq, Repr

/-- The allocator's state (spec 10). -/
structure Alloc where
  requests : Requests
  computed : Grants
  applied : Grants
  pendingDue : Option Nat
  energised : Nat
  reported : Nat
  measured : Nat
  term : Nat
  capExceeded : Bool
  unaccounted : Bool
  excessRun : Nat
  clearRun : Nat
  newest : Option Nat
  previous : Option Nat
  nextCheck : Nat
  deriving DecidableEq, Repr

/-! ## Start block (spec 11) -/

/-- Start outcomes (R175). -/
inductive StartOutcome where
  | good
  | noAnswer
  | sum
  | format
  | strapRange
  deriving DecidableEq, Repr

/-- Reset causes (spec 11). -/
inductive ResetCause where
  | powerOn
  | restart
  deriving DecidableEq, Repr

/-- The start block's state. `running` is clear while a start sequence is under way; `endedAt` is the moment the last
one ended. -/
structure Start where
  running : Bool
  strapped : Nat
  outcome : StartOutcome
  cause : ResetCause
  config : Config
  endedAt : Nat
  deriving DecidableEq, Repr

/-- The whole station. `pending` and `clock` are the model's own: the commands that wait, first in, first out, and the
own timebase in ms (assumption log 1). -/
structure State where
  pending : List Instr
  clock : Nat
  start : Start
  line : Line
  view : View
  shift : Shift
  traffic : Traffic
  lighting : Lighting
  doors : Doors
  heat : Heat
  air : Air
  overrides : Overrides
  alarms : Alarms
  alloc : Alloc
  deriving DecidableEq, Repr

/-- Faults. The spec describes no event that stops the part: what it calls faults are states of its blocks, and every
command of the table answers a next state. No constructor: nothing raises one, which is safe. -/
inductive Fault where
  deriving DecidableEq, Repr

/-- Refusals. -/
inductive Refusal where
  /-- The row's own stub: raised by an arm of exec whose command has no meaning yet; no arm uses it. Safe. -/
  | notModelled (mnemonic : String)
  deriving DecidableEq, Repr

/-! ## The state right after power-on reset -/

/-- No request in any tier. -/
def Requests.zero : Requests := { q0 := 0, q1 := 0, q2 := 0, q3 := 0 }

/-- No grant in any tier. -/
def Grants.zero : Grants := { g1 := 0, g2 := 0, g3 := 0 }

/-- An input with no debounced level yet, whose raw level is first sampled at `now` (R45). -/
def Debounced.unknown (now : Nat) (raw : Bool) : Debounced := { level := none, raw := raw, since := now }

/-- An input that is not sampled yet: the start sequence is under way (R45; the raw level and its moment are the model's
choice, assumption log 7). -/
def Debounced.unsampled : Debounced := Debounced.unknown 0 false

/-- Line engine at a start: HELD, queue empty, run 0, nothing sent (R24). The idle count 0 and the empty assembler while
HELD are the model's choice (DESIGN CHOICE, assumption log 7): R24 gives the idle count at the sequence's end only. -/
def Line.initial : Line :=
  { engine := .held, idle := 0, assembler := Assembler.start, queue := [], failures := 0, lastAlarm := none,
    lineFault := false }

/-- Peer view at a power-on reset (R41). While the start sequence is under way the link state has no value yet and the
straps are not read: SILENT, and all 32 entries ABSENT, the own one too, are the model's choice until
START_SEQUENCE_END makes the own entry SELF (DESIGN CHOICE, assumption log 7). -/
def View.initial : View :=
  { entries := List.replicate 32 PeerEntry.empty, sequence := 0, nextBeacon := 0, link := .silent,
    causes := { duplicate := false, timebase := false, defaulted := false, strapRange := false },
    listenDue := none, heard := false, isolationDue := none, timebaseLost := false, timebaseMark := 0 }

/-- Shift tracker at a power-on reset (R56). -/
def Shift.initial : Shift :=
  { epoch := none, page := 0, phase := .steady, changeoverDue := none, lockoutDue := none, input := Debounced.unsampled,
    energy := 0, peak := 0, crossings := 0, summary := none }

/-- Traffic unit at a start, before the gate is configured (R75). -/
def Traffic.initial : Traffic :=
  { gate := .none, tracking := false, beamA := false, beamB := false, position := 0, first := none, second := none,
    clean := true, invalid := [], quietSince := none, gateCount := 0, lowerSeen := none, count := 0, uncertain := false,
    zones := List.replicate 4 { asserted := false, releasedAt := none }, vacancySince := none }

/-- Lighting unit at a start, before a door is configured (R91). -/
def Lighting.initial : Lighting :=
  { bay := .vacant, leadInDue := none, vacatingDue := none, channels := List.replicate 4 Channel.dark, docks := [],
    manual := Debounced.unsampled }

/-- Door unit at a power-on reset, before a door is configured (R104). -/
def Doors.initial : Doors := { records := [], openUnsealed := 0, boost := false, recoveryDue := none }

/-- Heat unit at a start, before a stage is configured (R118). No last reading until the end of the sequence is the model's
choice (DESIGN CHOICE, assumption log 7): R118 gives the first reading at its end only. -/
def Heat.initial : Heat :=
  { last := none, fault := false, freeze := false, overheat := false, setpoint := 0, source := .unoccupied,
    effective := 0, stages := [], nextReading := 0 }

/-- Air unit at a start (R136). -/
def Air.initial : Air :=
  { co := GasChannel.fresh, no2 := GasChannel.fresh, gasClass := .none, fan1 := Fan.fresh, fan2 := Fan.fresh,
    balancing := 0, available := false, netFlow := 0 }

/-- Three empty stacks (R153). -/
def Overrides.initial : Overrides := { light := [], heat := [], vent := [] }

/-- Every flag clear (R153). -/
def Alarms.initial : Alarms := { active := 0, latched := 0 }

/-- Allocator at a power-on reset (R173). -/
def Alloc.initial : Alloc :=
  { requests := Requests.zero, computed := Grants.zero, applied := Grants.zero, pendingDue := none, energised := 0,
    reported := 0, measured := 0, term := 0, capExceeded := false, unaccounted := false, excessRun := 0, clearRun := 0,
    newest := none, previous := none, nextCheck := 0 }

/-- The machine right after power-on reset: the start sequence is under way and every output is held off (R174). -/
def State.reset : State where
  pending := []
  clock := 0
  start := { running := false, strapped := 0, outcome := .good, cause := .powerOn, config := Config.builtIn, endedAt := 0 }
  line := Line.initial
  view := View.initial
  shift := Shift.initial
  traffic := Traffic.initial
  lighting := Lighting.initial
  doors := Doors.initial
  heat := Heat.initial
  air := Air.initial
  overrides := Overrides.initial
  alarms := Alarms.initial
  alloc := Alloc.initial

/-! ## Updates of one block -/

/-- Replace the queue of waiting commands. -/
def State.setPending (s : State) (p : List Instr) : State := { s with pending := p }
/-- Replace the clock. -/
def State.setClock (s : State) (n : Nat) : State := { s with clock := n }
/-- Replace the start block. -/
def State.setStart (s : State) (b : Start) : State := { s with start := b }
/-- Replace the line engine. -/
def State.setLine (s : State) (b : Line) : State := { s with line := b }
/-- Replace the peer view. -/
def State.setView (s : State) (b : View) : State := { s with view := b }
/-- Replace the shift tracker. -/
def State.setShift (s : State) (b : Shift) : State := { s with shift := b }
/-- Replace the traffic unit. -/
def State.setTraffic (s : State) (b : Traffic) : State := { s with traffic := b }
/-- Replace the lighting unit. -/
def State.setLighting (s : State) (b : Lighting) : State := { s with lighting := b }
/-- Replace the door unit. -/
def State.setDoors (s : State) (b : Doors) : State := { s with doors := b }
/-- Replace the heat unit. -/
def State.setHeat (s : State) (b : Heat) : State := { s with heat := b }
/-- Replace the air unit. -/
def State.setAir (s : State) (b : Air) : State := { s with air := b }
/-- Replace the override unit. -/
def State.setOverrides (s : State) (b : Overrides) : State := { s with overrides := b }
/-- Replace the alarm unit. -/
def State.setAlarms (s : State) (b : Alarms) : State := { s with alarms := b }
/-- Replace the allocator. -/
def State.setAlloc (s : State) (b : Alloc) : State := { s with alloc := b }

/-- What a step of this machine answers. -/
abbrev Answer := Host.Outcome State Fault Refusal

end Sys2Proof.Machine
end

