-- ==== Sys2Proof/Machine/Flags.lean ====
section
/-! DEFINITION. The flags: the sixteen alarm causes, the active and latched summaries, and the attention output
(Table 37, R149 to R151). -/

namespace Sys2Proof.Machine

/-- Is some configured lighting channel in a forced mode (R80)? -/
def forcedOutput (c : Config) : Bool :=
  c.lighting.channels.any fun ch => ch.mode = .offForced || ch.mode = .fullForced

/-- Is the temperature monitor or either gas channel in fault (R107, R120)? -/
def sensorFault (s : State) : Bool := s.heat.fault || s.air.co.fault || s.air.no2.fault

/-- The sixteen causes in the order of Table 37. -/
def alarmCauses (s : State) : List Bool :=
  [ s.air.gasClass = .critical,
    s.air.gasClass ≠ .none,
    s.heat.freeze,
    s.heat.overheat,
    s.doors.records.any fun d => d.state = .held,
    s.doors.records.any fun d => d.state = .fault,
    s.traffic.gate = .fault,
    sensorFault s,
    s.alloc.unaccounted,
    s.alloc.capExceeded,
    s.view.link = .isolated,
    s.view.causes.duplicate,
    s.view.timebaseLost,
    s.view.causes.defaulted || s.view.causes.strapRange,
    forcedOutput s.start.config,
    s.line.lineFault ]

/-- A list of sixteen flags as a summary: the first in bit 15, the last in bit 0 (R181). -/
def packFlags (flags : List Bool) : Half := BitVec.ofNat 16 (flags.foldl (fun n b => 2 * n + b.toNat) 0)

/-- Is condition `n` of Table 37 set in a summary (R181)? -/
def conditionSet (summary : Half) (n : Nat) : Bool := summary.getLsbD (15 - n)

/-- The summaries after the causes have become `now`: the latched flag of a LATCHED condition is set when its active
flag becomes set; that of a COMPARATOR condition is held clear (R149). -/
def updateAlarms (latchedModes now : Half) (a : Alarms) : Alarms :=
  { active := now, latched := (a.latched ||| (now &&& ~~~a.active)) &&& latchedModes }

/-- One condition's owner reports its cause as false: its active flag is cleared, and nothing else changes (R149). -/
def endCondition (n : Nat) (a : Alarms) : Alarms := { a with active := a.active &&& ~~~((1 : Half) <<< (15 - n)) }

/-- ALARM_ACK: the latched flag of every inactive condition is cleared (R150). -/
def acknowledge (a : Alarms) : Alarms := { a with latched := a.latched &&& a.active }

/-- Is the attention output asserted: some annunciated condition active or latched (R151)? -/
def attentionAsserted (mask : Half) (a : Alarms) : Bool := decide ((a.active ||| a.latched) &&& mask ≠ 0)

end Sys2Proof.Machine
end

