-- ==== Sys2Proof/Machine/Bytes.lean ====
section
/-! DEFINITION. Byte order, signed fields, clamping and rounding (00_scope.md 0.8, R181). -/

namespace Sys2Proof.Machine

/-- "Clamped to lo..hi": below lo it is taken as lo, above hi as hi (00_scope.md 0.8). -/
def clampNat (lo hi n : Nat) : Nat := max lo (min hi n)

/-- The same for a signed value (00_scope.md 0.8). -/
def clampInt (lo hi n : Int) : Int := max lo (min hi n)

/-- Rounded down to a multiple of `step`. -/
def roundDown (step n : Nat) : Nat := n / step * step

/-- A two-byte field, most significant byte first (R181). -/
def half (hi lo : Byte) : Half := hi ++ lo

/-- A two-byte unsigned field as a number. -/
def word16 (hi lo : Byte) : Nat := (half hi lo).toNat

/-- A two-byte signed field, two's complement (R181). -/
def signed16 (hi lo : Byte) : Int := (half hi lo).toInt

/-- A number as one byte. -/
def byteOf (n : Nat) : Byte := BitVec.ofNat 8 n

/-- A two-byte field as its bytes, most significant first (R181). -/
def halfBytes (h : Half) : List Byte := [h.extractLsb' 8 8, h.extractLsb' 0 8]

/-- A number in two bytes, most significant first. -/
def bytes16 (n : Nat) : List Byte := [byteOf (n / 256), byteOf n]

/-- A number in three bytes, most significant first. -/
def bytes24 (n : Nat) : List Byte := [byteOf (n / 65536), byteOf (n / 256), byteOf n]

/-- A number in four bytes, most significant first. -/
def bytes32 (n : Nat) : List Byte := [byteOf (n / 16777216), byteOf (n / 65536), byteOf (n / 256), byteOf n]

/-- A signed number in two bytes, two's complement, most significant first (R181). -/
def signedBytes (i : Int) : List Byte := halfBytes (BitVec.ofInt 16 i)

/-- One bit of a byte set or clear: its weight if the flag is set. -/
def weight (flag : Bool) (w : Nat) : Nat := if flag then w else 0

/-- The bits of a byte in the order they are sent, bit 7 first (spec 12). -/
def byteBits (b : Byte) : List Bool :=
  [b.getLsbD 7, b.getLsbD 6, b.getLsbD 5, b.getLsbD 4, b.getLsbD 3, b.getLsbD 2, b.getLsbD 1, b.getLsbD 0]

/-- The bits of a byte string in the order they are sent. -/
def bitsOf (bytes : List Byte) : List Bool := bytes.flatMap byteBits

/-- Whole seconds of a time in ms, rounded toward zero (00_scope.md 0.8, assumption log 15). -/
def secondsOf (ms : Nat) : Nat := ms / 1000

end Sys2Proof.Machine
end

