-- ==== Sys2Proof/Machine/LineCode.lean ====
section
/-! DEFINITION. The frame on the shed line: header, CRC, stuffing, and the receiver that takes a frame in bit by bit
(R2, R4, R9, R10, Figures 2 and 10). A line bit is `true` when recessive (logical 1). -/

namespace Sys2Proof.Machine

/-- The codes of the bulletin kinds (Table 6). -/
def kindAlarm : Nat := 0
/-- HANDOFF. -/
def kindHandoff : Nat := 1
/-- SHIFT. -/
def kindShift : Nat := 2
/-- DIRECTIVE. -/
def kindDirective : Nat := 3
/-- BEACON. -/
def kindBeacon : Nat := 4
/-- QUERY. -/
def kindQuery : Nat := 5
/-- REPLY. -/
def kindReply : Nat := 6

/-- The kind code of a queued bulletin (Table 6). -/
def kindOf : Bulletin → Nat
  | .alarm _ _ => kindAlarm
  | .handoff _ => kindHandoff
  | .shift _ _ => kindShift
  | .beacon => kindBeacon
  | .reply _ _ _ _ _ => kindReply

/-- Is `len` a payload length that Table 6 accepts for kind code `kind`? Codes 7 to 15 accept none (R9). -/
def lengthAccepted (kind len : Nat) : Bool :=
  match kind with
  | 0 => len == 4
  | 1 => len == 4
  | 2 => len == 2
  | 3 => len == 9
  | 4 => len == 24
  | 5 => len == 3
  | 6 => decide (4 ≤ len ∧ len ≤ 48)
  | _ => false

/-- The number a bit string spells, first bit most significant. -/
def numberOf (bits : List Bool) : Nat := bits.foldl (fun n b => 2 * n + b.toNat) 0

/-- The two header bytes: kind (4 bits), station (6), payload length (6) (Figure 10). -/
def headerBytes (kind : Nat) (station : Station) (len : Nat) : List Byte :=
  bytes16 (kind * 4096 + station.toNat * 64 + len)

/-- One bit of the CRC computation (R4). -/
def crcStep (reg : Half) (bit : Bool) : Half :=
  if (reg.msb ^^ bit) then (reg <<< 1) ^^^ 0x8005 else reg <<< 1

/-- The CRC register after a bit string, from the preset 0xFFFF (R4). -/
def crcOf (bits : List Bool) : Half := bits.foldl crcStep 0xFFFF

/-- The bits of a frame before stuffing: header, payload and CRC (Figure 2). -/
def frameBits (kind : Nat) (station : Station) (payload : List Byte) : List Bool :=
  let body := bitsOf (headerBytes kind station payload.length ++ payload)
  body ++ bitsOf (halfBytes (crcOf body))

/-- The sender's stuffing after `run` equal bits of `level` (R2): after five equal bits one of the opposite level,
which starts the next run; also after the last bit. -/
def stuffFrom (run : Nat) (level : Bool) : List Bool → List Bool
  | [] => if run = 5 then [!level] else []
  | b :: bs =>
    if run = 5 then (!level) :: b :: stuffFrom (if b = !level then 2 else 1) b bs
    else b :: stuffFrom (if b = level then run + 1 else 1) b bs

/-- The line bits of a frame after its start delimiter, which counts in the stuffing run (R2, R3). -/
def lineBits (kind : Nat) (station : Station) (payload : List Byte) : List Bool :=
  stuffFrom 1 false (frameBits kind station payload)

/-- The number of line bits up to and including the last of some frame bits, the stuff bits among them counted (R2, R6). -/
def stuffedSpan (run : Nat) (level : Bool) : List Bool → Nat
  | [] => 0
  | b :: bs =>
    if run = 5 then 2 + stuffedSpan (if b = !level then 2 else 1) b bs
    else 1 + stuffedSpan (if b = level then run + 1 else 1) b bs

/-- The number of line bits of the arbitration field: the first ten header bits with the stuff bits among them (R6). -/
def arbitrationSpan (kind : Nat) (station : Station) (payload : List Byte) : Nat :=
  stuffedSpan 1 false ((frameBits kind station payload).take 10)

/-- What the receiver makes of one more line bit. -/
inductive Reception where
  /-- The frame goes on. -/
  | more (a : Assembler)
  /-- The frame is discarded (R11). -/
  | discard
  /-- The frame is accepted: kind code, station, payload bits (R10, R12). -/
  | accept (kind : Nat) (station : Nat) (payload : List Bool)
  deriving DecidableEq, Repr

/-- The frame bits expected once the header is known: 16 header bits, the payload, 16 CRC bits (R9). -/
def expectedBits (a : Assembler) : Option Nat := a.length.map (fun n => 32 + 8 * n)

/-- The header checks of R9 on an assembler that has just taken in its sixteenth bit. -/
def checkHeader (a : Assembler) : Reception :=
  if lengthAccepted (numberOf (a.bits.take 4)) (numberOf (a.bits.drop 10))
  then .more { a with length := some (numberOf (a.bits.drop 10)) }
  else .discard

/-- The end of the frame after six recessive bit times: the CRC test (R10, R4). -/
def checkCrc (a : Assembler) : Reception :=
  let body := a.bits.take (a.bits.length - 16)
  if bitsOf (halfBytes (crcOf body)) = a.bits.drop (a.bits.length - 16)
  then .accept (numberOf (a.bits.take 4)) (numberOf ((a.bits.drop 4).take 6)) (body.drop 16)
  else .discard

/-- The receiver takes one line bit (R2, R9, R10).
After five equal bits the next one is a stuff bit; once every expected bit is in, six recessive bits end the frame. -/
def receiveBit (a : Assembler) (bit : Bool) : Reception :=
  if a.run = 5 then
    if bit = a.level then .discard else .more { a with run := 1, level := bit }
  else if expectedBits a = some a.bits.length then
    if bit = false then .discard
    else if a.tail = 5 then checkCrc a
    else .more { a with tail := a.tail + 1 }
  else
    let a' := { a with bits := a.bits ++ [bit], run := if bit = a.level then a.run + 1 else 1, level := bit }
    if a'.bits.length = 16 then checkHeader a' else .more a'

/-- The receiver takes a string of line bits. A verdict stands only if it falls on the string's last bit; `none` when
bits are left over after one. -/
def receiveBits (a : Assembler) : List Bool → Option Reception
  | [] => some (.more a)
  | b :: bs =>
    match receiveBit a b with
    | .more a' => receiveBits a' bs
    | verdict => if bs = [] then some verdict else none

/-- The idle count after one line bit: 0 after a dominant one, else one more, held at 12 (R3). -/
def idleStep (count : Nat) (bit : Bool) : Nat := if bit then min 12 (count + 1) else 0

/-- The idle count after a string of line bits. -/
def idleAfter (count : Nat) (bits : List Bool) : Nat := bits.foldl idleStep count

/-- The idle count after the line levels read in HUNT; `none` when bits are left over once it has reached 12, since HUNT
is over then (R3). -/
def huntBits (count : Nat) : List Bool → Option Nat
  | [] => some count
  | b :: bs => if idleStep count b = 12 ∧ bs ≠ [] then none else huntBits (idleStep count b) bs

/-- The six recessive bit times that end a frame (Figure 2, R10). -/
def frameTail : List Bool := List.replicate 6 true

end Sys2Proof.Machine
end

