-- ==== Sys2Proof/Machine/Operands.lean ====
section
/-! DEFINITION. The operand forms: the fields of each payload as they are taken (Tables 46 to 48, R182), and the byte
layouts a sender writes (R181). -/

namespace Sys2Proof.Machine

/-! ## HANDOFF and SHIFT -/

/-- Upper four bits of a byte. -/
abbrev hiNibble (b : Byte) : Nat := b.toNat / 16

/-- Lower four bits of a byte. -/
abbrev loNibble (b : Byte) : Nat := b.toNat % 16

/-- A speed class code; one outside the four is UNKNOWN (R66, R182). -/
def speedOfCode (n : Nat) : SpeedClass :=
  match n with
  | 0 => .fast
  | 1 => .normal
  | 2 => .slow
  | _ => .unknown

/-- The code of a speed class (Table 46). -/
def speedCode : SpeedClass → Nat
  | .fast => 0
  | .normal => 1
  | .slow => 2
  | .unknown => 3

/-- A HANDOFF as received; `none` when its direction names neither UP nor DOWN and it is ignored whole (R66). -/
def handoffOf (p : Vector Byte 4) : Option Handoff :=
  let fields (d : Travel) : Handoff :=
    { direction := d, speed := speedOfCode (loNibble p[0]), count := p[1], transit := word16 p[2] p[3] }
  if hiNibble p[0] = 0 then some (fields .up)
  else if hiNibble p[0] = 1 then some (fields .down)
  else none

/-- The bytes of a HANDOFF (Table 46). -/
def handoffBytes (h : Handoff) : List Byte :=
  [byteOf ((match h.direction with | .up => 0 | .down => 1) * 16 + speedCode h.speed), h.count] ++ bytes16 h.transit

/-- A SHIFT as received; `none` when its page is above 3 and it is ignored whole (R48, R182). -/
def shiftOf (p : Vector Byte 2) : Option (Byte × Fin 4) :=
  if h : p[1].toNat < 4 then some (p[0], ⟨p[1].toNat, h⟩) else none

/-! ## BEACON -/

/-- Link state code of a BEACON; 3 is taken as ISOLATED (R182). -/
def declaredLink (n : Nat) : LinkState :=
  match n with
  | 0 => .listen
  | 1 => .joined
  | _ => .isolated

/-- Link state code as STATUS and BEACON show it (Tables 48 and 50). -/
def linkCode : LinkState → Nat
  | .listen => 0
  | .joined => 1
  | .isolated => 2
  | .silent => 3

/-- Gate status code; 3 is taken as FAULT (R182). -/
def gateOfCode (n : Nat) : GateStatus :=
  match n with
  | 0 => .none
  | 1 => .ok
  | _ => .fault

/-- Code of a gate status (Table 48). -/
def gateCode : GateStatus → Nat
  | .none => 0
  | .ok => 1
  | .fault => 2

/-- Gas class code; 3 is taken as CRITICAL (R182). -/
def gasOfCode (n : Nat) : GasClass :=
  match n with
  | 0 => .none
  | 1 => .action
  | _ => .critical

/-- Code of a gas class (Table 48). -/
def gasCode : GasClass → Nat
  | .none => 0
  | .action => 1
  | .critical => 2

/-- Lighting state code (Table 48). -/
def bayOfCode (n : Nat) : BayState :=
  match n with
  | 0 => .vacant
  | 1 => .leadIn
  | 2 => .occupied
  | _ => .vacating

/-- Code of a lighting state (Table 48). -/
def bayCode : BayState → Nat
  | .vacant => 0
  | .leadIn => 1
  | .occupied => 2
  | .vacating => 3

/-- A temperature field; 0x8000 and every value outside −400 to +600 are no reading (R182, Table 2). -/
def temperatureOf (hi lo : Byte) : Option Int :=
  let t := signed16 hi lo
  if -400 ≤ t ∧ t ≤ 600 then some t else none

/-- The bytes of a temperature, 0x8000 for no reading (R181). -/
def temperatureBytes : Option Int → List Byte
  | some t => signedBytes t
  | none => [0x80, 0x00]

/-- The fields of a BEACON as taken (Table 48, R182). -/
def beaconOf (p : Vector Byte 24) : BeaconFields where
  sequence := p[0]
  interval := clampNat 5 50 p[1].toNat * 100
  link := declaredLink (p[2].toNat / 64)
  epochKnown := p[2].getLsbD 5
  phase := if p[2].getLsbD 4 then .changeover else .steady
  page := p[2].extractLsb' 0 4
  epoch := p[3]
  occupancy := min 15 p[4].toNat
  uncertain := p[5].getLsbD 7
  available := p[5].getLsbD 6
  gate := gateOfCode (p[5].toNat / 16 % 4)
  gas := gasOfCode (p[5].toNat / 4 % 4)
  bay := bayOfCode (p[5].toNat % 4)
  gateCount := p[6]
  temperature := temperatureOf p[7] p[8]
  netFlow := max (-32767) (signed16 p[9] p[10])
  openUnsealed := min 8 p[11].toNat
  draw := word16 p[12] p[13]
  requests := { q0 := word16 p[14] p[15], q1 := word16 p[16] p[17], q2 := word16 p[18] p[19], q3 := word16 p[20] p[21] }

/-- The alarm active summary a BEACON carries (Table 48). -/
def beaconAlarms (p : Vector Byte 24) : Half := half p[22] p[23]

/-- Byte 2 of the BEACON layout without its link state bits. -/
def shiftByte (known : Bool) (phase : Phase) (page : Nat) : Nat :=
  weight known 32 + weight (decide (phase = .changeover)) 16 + page

/-- Byte 5 of the BEACON layout. -/
def baySummaryByte (uncertain available : Bool) (gate : GateStatus) (gas : GasClass) (bay : BayState) : Nat :=
  weight uncertain 128 + weight available 64 + gateCode gate * 16 + gasCode gas * 4 + bayCode bay

/-- The 24 bytes of a BEACON (Table 48). -/
def beaconBytes (f : BeaconFields) (alarms : Half) : List Byte :=
  [f.sequence, byteOf (f.interval / 100), byteOf (linkCode f.link * 64 + shiftByte f.epochKnown f.phase f.page.toNat),
    f.epoch, byteOf f.occupancy, byteOf (baySummaryByte f.uncertain f.available f.gate f.gas f.bay), f.gateCount]
    ++ temperatureBytes f.temperature ++ signedBytes f.netFlow ++ [byteOf f.openUnsealed] ++ bytes16 f.draw
    ++ bytes16 f.requests.q0 ++ bytes16 f.requests.q1 ++ bytes16 f.requests.q2 ++ bytes16 f.requests.q3
    ++ halfBytes alarms

/-! ## ALARM -/

/-- The active summary of an ALARM (Table 46). -/
def alarmActive (p : Vector Byte 4) : Half := half p[0] p[1]

/-! ## DIRECTIVE (Table 47) -/

/-- Directive kinds (Table 36). -/
inductive DirectiveKind where
  | lightSet
  | heatHold
  | heatSetpoint
  | heatBoost
  | ventPurge
  | ventStop
  | release
  | alarmAck
  | restart
  deriving DecidableEq, Repr

/-- The directive kind of a payload; codes 9 to 15 name none and the directive is dropped (R182). -/
def directiveKind (p : Vector Byte 9) : Option DirectiveKind :=
  match loNibble p[1] with
  | 0 => some .lightSet
  | 1 => some .heatHold
  | 2 => some .heatSetpoint
  | 3 => some .heatBoost
  | 4 => some .ventPurge
  | 5 => some .ventStop
  | 6 => some .release
  | 7 => some .alarmAck
  | 8 => some .restart
  | _ => none

/-- Does the directive's group selector match the group code under its match mode (R13)? -/
def directiveMatches (group : Byte) (p : Vector Byte 9) : Bool :=
  match hiNibble p[1] with
  | 0 => p[0] == group
  | 1 => hiNibble p[0] == hiNibble group
  | 2 => true
  | _ => false

/-- The precedence of the entry a directive places, clamped to 1..6 (R140). -/
def directivePrecedence (p : Vector Byte 9) : Nat := clampNat 1 6 p[2].toNat

/-- The duration in seconds; 0 means until released (R140). -/
def directiveDuration (p : Vector Byte 9) : Nat := word16 p[3] p[4]

/-- Air direction of a VENT_PURGE code; 2 to 255 name none (R145). -/
def airDirOfCode (n : Nat) : Option AirDir :=
  match n with
  | 0 => some .supply
  | 1 => some .exhaust
  | _ => none

/-- The effect of a directive that places an entry; `none` when it is ignored whole, and for the kinds that place none
(R141 to R146, R182). -/
def directiveEffect (kind : DirectiveKind) (p : Vector Byte 9) : Option Effect :=
  match kind with
  | .lightSet =>
    if p[6].extractLsb' 0 4 = 0 then none else some (.level (min 100 p[5].toNat) (p[6].extractLsb' 0 4))
  | .heatHold => some .hold
  | .heatSetpoint => some (.setpoint (clampInt (-400) 600 (signed16 p[5] p[6])))
  | .heatBoost => some (.boost (min 100 p[5].toNat))
  | .ventPurge => (airDirOfCode p[5].toNat).map (fun d => .purge d (roundDown 5 (min 100 p[6].toNat)))
  | .ventStop => some .stop
  | .release => none
  | .alarmAck => none
  | .restart => none

/-- Is the stack's flag set in a RELEASE's stack mask (R147, Table 47)? -/
def releaseNames (p : Vector Byte 9) : StackId → Bool
  | .light => p[5].getLsbD 0
  | .heat => p[5].getLsbD 1
  | .vent => p[5].getLsbD 2

/-- The all flag of a RELEASE (R147). -/
def releaseAll (p : Vector Byte 9) : Bool := p[5].getLsbD 7

/-! ## QUERY and REPLY -/

/-- The target station of a QUERY, bits 5 to 0 of its byte (R181). -/
def queryTarget (p : Vector Byte 3) : Nat := p[0].toNat % 64

/-- The payload bytes of a queued bulletin other than a BEACON (Tables 46 and 49). -/
def bulletinBytes : Bulletin → List Byte
  | .alarm active latched => halfBytes active ++ halfBytes latched
  | .handoff h => handoffBytes h
  | .shift epoch page => [epoch, byteOf page.val]
  | .beacon => []
  | .reply requester kind index ok body => [byteOf requester.toNat, kind, index, if ok then 0 else 1] ++ body

end Sys2Proof.Machine
end

