-- ==== Sys2Proof/Machine/Ops.lean ====
section
/-! DEFINITION. The shared operations: the transmit queue (R16 to R20), the link state and its silent causes
(R33 to R37), and the override stacks (R137 to R139). -/

namespace Sys2Proof.Machine

/-! ## Configuration and numbers -/

/-- The configured values in force. -/
@[simp] abbrev State.cfg (s : State) : Config := s.start.config

/-- The own strapped number. -/
@[simp] abbrev State.own (s : State) : Nat := s.start.strapped

/-- N_cfg. -/
@[simp] abbrev State.nCfg (s : State) : Nat := s.start.config.header.nCfg

/-- The current profile page. -/
def currentPage (s : State) : Page := s.cfg.pages.getD s.shift.page.val (Page.builtIn 0)

/-- Is the class of the current page WORKING? -/
def isWorking (s : State) : Bool := (currentPage s).pageClass = .working

/-- Has a timer that is due at a moment, or stopped, reached its limit? -/
def reached (due : Option Nat) (now : Nat) : Bool :=
  match due with
  | some t => decide (t ≤ now)
  | none => false

/-- The list with element `i` changed by `f`. -/
def updateAt {α : Type} (i : Nat) (f : α → α) : List α → List α
  | [] => []
  | x :: xs => if i = 0 then f x :: xs else x :: updateAt (i - 1) f xs

/-- Two lists taken side by side: each element of the first is changed by the one beside it, and one with none beside
it stays. -/
def alongside {α β : Type} (f : α → β → α) : List α → List β → List α
  | x :: xs, y :: ys => f x y :: alongside f xs ys
  | xs, _ => xs

/-! ## Debounced inputs -/

/-- The raw level is `level` from `now` on: the stable time starts again (R45, R90, R93). -/
def Debounced.sample (now : Nat) (level : Bool) (i : Debounced) : Debounced := { i with raw := level, since := now }

/-- The raw level, held for the stable time, becomes the debounced level (R45, R90, R93). -/
def Debounced.take (level : Bool) (i : Debounced) : Debounced := { i with level := some level }

/-- Has the raw level been `level` for the stable time `period` (R45, R90, R93)? -/
def Debounced.held (period now : Nat) (level : Bool) (i : Debounced) : Bool :=
  decide (i.raw = level) && decide (i.since + period ≤ now)

/-- Can `event` befall an input with `level` at `now`, given the stable time `period` (R45, R90, R93): the raw level changes
to `level`, or it has held there for the stable time and is not yet the debounced level? -/
def Debounced.admits (period now : Nat) (event : InputEvent) (level : Bool) (i : Debounced) : Bool :=
  match event with
  | .raw => decide (i.raw ≠ level)
  | .stable => decide (i.level ≠ some level) && i.held period now level

/-! ## Transmit queue -/

/-- Is the slot under a transmit attempt? -/
def Slot.inFlight (x : Slot) : Bool := x.sending.isSome

/-- A slot that waits with a content. -/
def Slot.waiting (b : Bulletin) : Slot := { content := b, sending := none, renewed := none }

/-- Does the slot hold an item of kind code `k`? -/
def Slot.isKind (k : Nat) (x : Slot) : Bool := kindOf x.content == k

/-- The number of items of a kind in the queue (R16). -/
def countKind (k : Nat) (q : List Slot) : Nat := q.countP (Slot.isKind k)

/-- A new item meets the queued one of its own kind: it replaces a waiting one and renews one in flight (R17). -/
def renewSlot (b : Bulletin) (x : Slot) : Slot :=
  if x.inFlight then { x with renewed := some b } else { x with content := b }

/-- Insertion of a BEACON, SHIFT, REPLY or differing ALARM: at most one item of its kind (R17, R19). -/
def insertSingle (b : Bulletin) (q : List Slot) : List Slot :=
  if q.any (Slot.isKind (kindOf b)) then q.map (fun x => if Slot.isKind (kindOf b) x then renewSlot b x else x)
  else q ++ [Slot.waiting b]

/-- The queue without its oldest HANDOFF that is not in flight (R18). -/
def dropOldestHandoff : List Slot → List Slot
  | [] => []
  | x :: xs => if Slot.isKind kindHandoff x && !x.inFlight then xs else x :: dropOldestHandoff xs

/-- Insertion of a HANDOFF: first in, first out, up to four (R18). -/
def insertHandoff (h : Handoff) (q : List Slot) : List Slot :=
  if countKind kindHandoff q < 4 then q ++ [Slot.waiting (.handoff h)]
  else dropOldestHandoff q ++ [Slot.waiting (.handoff h)]

/-- Offering ALARM content to the queue (R19): it renews an ALARM in flight; equal to the last-sent content it is not
queued, or withdraws the queued ALARM; otherwise it is queued or refreshes the queued one. -/
def offerAlarm (active latched : Half) (l : Line) : Line :=
  if l.queue.any (fun x => Slot.isKind kindAlarm x && x.inFlight) then
    { l with queue := insertSingle (.alarm active latched) l.queue }
  else if l.lastAlarm = some (active, latched) then
    { l with queue := l.queue.filter (fun x => !Slot.isKind kindAlarm x) }
  else { l with queue := insertSingle (.alarm active latched) l.queue }

/-- Insertion of any bulletin by its kind's rule (R17 to R19). -/
def insertBulletin (b : Bulletin) (l : Line) : Line :=
  match b with
  | .handoff h => { l with queue := insertHandoff h l.queue }
  | .alarm active latched => offerAlarm active latched l
  | .shift epoch page => { l with queue := insertSingle (.shift epoch page) l.queue }
  | .beacon => { l with queue := insertSingle .beacon l.queue }
  | .reply requester kind index ok body => { l with queue := insertSingle (.reply requester kind index ok body) l.queue }

/-- A block offers a bulletin: in SILENT it is not inserted (R20). -/
def offer (b : Bulletin) (s : State) : State :=
  if s.view.link = .silent then s else s.setLine (insertBulletin b s.line)

/-- The kind an attempt sends: the lowest kind code queued (R16). -/
def lowestKind (q : List Slot) : Option Nat := (q.map (fun x => kindOf x.content)).min?

/-- The item an attempt sends: the earliest of the lowest kind (R16). -/
def chosenSlot (q : List Slot) : Option Slot := (lowestKind q).bind (fun k => q.find? (Slot.isKind k))

/-- Mark the earliest item of kind `k` in flight with its payload (R5). -/
def markInFlight (k : Nat) (payload : List Byte) : List Slot → List Slot
  | [] => []
  | x :: xs => if Slot.isKind k x then { x with sending := some payload } :: xs else x :: markInFlight k payload xs

/-- The slot in flight, if any. -/
def inFlightSlot (q : List Slot) : Option Slot := q.find? Slot.inFlight

/-- A slot after lost arbitration or an abort: back in the queue, with the renewed content if it was renewed
(R6, R7, R17, R19). -/
def returnSlot (x : Slot) : Slot :=
  if x.inFlight then Slot.waiting (x.renewed.getD x.content) else x

/-- A slot after its transmission completed: gone unless renewed; a renewed ALARM equal to the content just sent is
gone too (R8, R17, R19). -/
def completeSlot (x : Slot) : Option Slot :=
  if x.inFlight then
    match x.renewed with
    | none => none
    | some r => if Slot.isKind kindAlarm x ∧ r = x.content then none else some (Slot.waiting r)
  else some x

/-- The last-sent ALARM content after a slot's transmission completed (R8). -/
def alarmSent (last : Option (Half × Half)) (x : Slot) : Option (Half × Half) :=
  match x.content with
  | .alarm active latched => some (active, latched)
  | _ => last

/-! ## Link state -/

/-- Is the set of silent causes empty? -/
def SilentCauses.isEmpty (c : SilentCauses) : Bool := !(c.duplicate || c.timebase || c.defaulted || c.strapRange)

/-- The set with one cause set to present or absent. -/
def SilentCauses.put (c : SilentCauses) (cause : SilentCause) (present : Bool) : SilentCauses :=
  match cause with
  | .duplicate => { c with duplicate := present }
  | .timebase => { c with timebase := present }
  | .defaulted => { c with defaulted := present }
  | .strapRange => { c with strapRange := present }

/-- Entering LISTEN: the listen timer starts at 3 own intervals, the heard flag is cleared (R33). -/
def enterListen (s : State) : State :=
  s.setView { s.view with
    link := .listen, listenDue := some (s.clock + 3 * s.cfg.header.interval), heard := false, isolationDue := none }

/-- The isolation timer as started or restarted now: it does not run where N_cfg is 1 (R34). -/
def isolationStart (s : State) : Option Nat :=
  if s.nCfg = 1 then none else some (s.clock + 5 * s.cfg.header.interval)

/-- Entering JOINED (R34). -/
def enterJoined (s : State) : State :=
  s.setView { s.view with link := .joined, listenDue := none, isolationDue := isolationStart s }

/-- Entering ISOLATED: the listen and isolation timers stop (R35). -/
def enterIsolated (s : State) : State :=
  s.setView { s.view with link := .isolated, listenDue := none, isolationDue := none }

/-- Entering SILENT, or staying there: running timers stop and every queued item is removed (R36, R20). -/
def enterSilent (s : State) : State :=
  (s.setView { s.view with link := .silent, listenDue := none, isolationDue := none }).setLine { s.line with queue := [] }

/-- A silent cause is added: the link state becomes SILENT, or the cause joins the set (R36). -/
def addCause (cause : SilentCause) (s : State) : State :=
  let s' := s.setView { s.view with causes := s.view.causes.put cause true }
  if s.view.link = .silent then s' else enterSilent s'

/-- A silent cause is removed: if the set becomes empty the link state becomes LISTEN (R36). -/
def removeCause (cause : SilentCause) (s : State) : State :=
  let s' := s.setView { s.view with causes := s.view.causes.put cause false }
  if s'.view.causes.isEmpty && decide (s.view.link = .silent) then enterListen s' else s'

/-- The lowest allowance among the silent causes present (R36, R37). -/
def silentAllowance (c : Config) (causes : SilentCauses) : Nat :=
  if causes.strapRange then 0
  else if causes.defaulted then
    if causes.duplicate || causes.timebase then min 100 c.isolatedShare else 100
  else c.isolatedShare

/-- The allowance of a link state other than JOINED (R37). -/
def allowance (s : State) : Nat :=
  match s.view.link with
  | .silent => silentAllowance s.cfg s.view.causes
  | _ => s.cfg.isolatedShare

/-! ## Override stacks -/

/-- The identity of an entry: its source kind together with its origin (R138). -/
def sameIdentity (source : SourceKind) (origin : Option Station) (e : OverrideEntry) : Bool :=
  e.source = source && e.origin = origin

/-- The ruling entry of a stack, or of the entries that apply to a channel: the highest precedence, among equals the
latest arrival (R137, R81). -/
def ruling (stack : List OverrideEntry) : Option OverrideEntry :=
  stack.foldl (fun best e => match best with
    | none => some e
    | some b => if b.precedence ≤ e.precedence then some e else some b) none

/-- The weakest entry of a stack: the lowest precedence, among equals the earliest arrival (R138). -/
def weakest (stack : List OverrideEntry) : Option OverrideEntry :=
  stack.foldl (fun best e => match best with
    | none => some e
    | some b => if e.precedence < b.precedence then some e else some b) none

/-- The stack without the entry of an identity. -/
def withoutIdentity (source : SourceKind) (origin : Option Station) (stack : List OverrideEntry) : List OverrideEntry :=
  stack.filter (fun e => !sameIdentity source origin e)

/-- An entry is offered to a stack: it replaces the one of its identity, takes a free place, evicts the weakest entry,
or is refused (R138). -/
def offerEntry (e : OverrideEntry) (stack : List OverrideEntry) : List OverrideEntry :=
  if stack.any (sameIdentity e.source e.origin) then withoutIdentity e.source e.origin stack ++ [e]
  else if stack.length < 4 then stack ++ [e]
  else
    match weakest stack with
    | none => stack ++ [e]
    | some w => if w.precedence < e.precedence then withoutIdentity w.source w.origin stack ++ [e] else stack

/-- A stack by name. -/
def stackOf (o : Overrides) : StackId → List OverrideEntry
  | .light => o.light
  | .heat => o.heat
  | .vent => o.vent

/-- One stack changed by `f`. -/
def onStack (k : StackId) (f : List OverrideEntry → List OverrideEntry) (o : Overrides) : Overrides :=
  match k with
  | .light => { o with light := f o.light }
  | .heat => { o with heat := f o.heat }
  | .vent => { o with vent := f o.vent }

/-- The station's stacks with one changed by `f`. -/
def onStackOf (k : StackId) (f : List OverrideEntry → List OverrideEntry) (s : State) : State :=
  s.setOverrides (onStack k f s.overrides)

/-- The ruling effect of a stack as a whole (R137). -/
def rulingEffect (stack : List OverrideEntry) : Option Effect := (ruling stack).map OverrideEntry.effect

/-- Does a LIGHT entry apply to channel `i` (counted from 0) (R81)? -/
def appliesTo (i : Nat) (e : OverrideEntry) : Bool :=
  match e.effect with
  | .level _ channels => channels.getLsbD i
  | _ => false

/-- The ruling LIGHT entry of channel `i` (R81). -/
def rulingFor (i : Nat) (stack : List OverrideEntry) : Option OverrideEntry := ruling (stack.filter (appliesTo i))

end Sys2Proof.Machine
end

