-- ==== Sys2Proof/Machine/AirUnit.lean ====
section
/-! DEFINITION. The air unit's rules: gas channels, fan demand resolution, running, coasting, ramping and shed
balancing (spec 08). -/

namespace Sys2Proof.Machine

/-! ## Gas channels -/

/-- A level with threshold `th` and clear bound `th − band` takes an in-range sample (R121). -/
def judgeLevel (wa wc th band n : Nat) (l : GasLevel) : GasLevel :=
  if l.asserted then
    if n < th - band then (if wc ≤ l.run + 1 then { asserted := false, run := 0 } else { l with run := l.run + 1 })
    else { l with run := 0 }
  else if th ≤ n then (if wa ≤ l.run + 1 then { asserted := true, run := 0 } else { l with run := l.run + 1 })
  else { l with run := 0 }

/-- A sample is in range when the input returns a value up to full scale (R120). -/
def inRange (c : GasConfig) (sample : Option Nat) : Option Nat := sample.filter (fun n => n ≤ c.fullScale)

/-- A gas channel takes one sample (R120, R121). -/
def takeSample (wa wc : Nat) (c : GasConfig) (sample : Option Nat) (g : GasChannel) : GasChannel :=
  match inRange c sample with
  | none =>
    { g with last := .faulty, fault := true, clearRun := 0, action := { g.action with run := 0 },
             critical := { g.critical with run := 0 } }
  | some n =>
    let clears := g.fault ∧ wc ≤ g.clearRun + 1
    { g with
      last := .value n
      fault := if clears then false else g.fault
      clearRun := if g.fault ∧ ¬clears then g.clearRun + 1 else 0
      action := judgeLevel wa wc c.action c.band n g.action
      critical := judgeLevel wa wc c.critical c.band n g.critical }

/-- A channel's class (R122). -/
def channelClass (g : GasChannel) : GasClass :=
  if g.critical.asserted then .critical else if g.action.asserted || g.fault then .action else .none

/-- The higher of two gas classes (R122). -/
def higherClass (a b : GasClass) : GasClass :=
  if a = .critical ∨ b = .critical then .critical else if a = .action ∨ b = .action then .action else .none

/-- The bay gas class formed afresh (R122). -/
def formGasClass (a : Air) : Air := { a with gasClass := higherClass (channelClass a.co) (channelClass a.no2) }

/-! ## Power and flow -/

/-- The power of a fan rated `rated` at speed `s` (R124). -/
def fanPower (rated s : Nat) : Nat := rated * (s * s * s) / 1000000

/-- The signed flow of a fan at its present speed and direction; UNKNOWN comes with speed 0 (R124). -/
def fanFlow (flow : Nat) (f : Fan) : Int :=
  match f.direction with
  | some .supply => (flow * f.present / 100 : Nat)
  | some .exhaust => -((flow * f.present / 100 : Nat) : Int)
  | none => 0

/-! ## Demand resolution -/

/-- What a row of Table 31 gives a fan; no direction where the row's speed is 0. -/
structure FanDemand where
  source : FanSource
  dir : Option AirDir
  speed : Nat
  tier : Option Tier
  deriving DecidableEq, Repr

/-- No row applies (Table 31, last row). -/
def FanDemand.idle : FanDemand := { source := .none, dir := none, speed := 0, tier := none }

/-- A stop, or a purge with speed 0, recorded as source 3 (Table 31, row 5). -/
def FanDemand.halt : FanDemand := { source := .vent, dir := none, speed := 0, tier := none }

/-- A purge row (Table 31, row 3): direction and speed of a ruling purge with speed above 0. -/
def purgeOf (vent : Option Effect) : Option (AirDir × Nat) :=
  match vent with
  | some (.purge d n) => if 0 < n then some (d, n) else none
  | _ => none

/-- The demand of fan 1 (Table 31). -/
def resolveFan1 (gas : GasClass) (actionSpeed : Nat) (vent : Option Effect) (minVent : Nat) (ventilates : Bool) : FanDemand :=
  match gas with
  | .critical => { source := .critical, dir := some .exhaust, speed := 100, tier := some 0 }
  | .action => { source := .action, dir := some .exhaust, speed := actionSpeed, tier := some 1 }
  | .none =>
    match purgeOf vent with
    | some (d, n) => { source := .vent, dir := some d, speed := n, tier := some 1 }
    | none =>
      if vent.isSome then FanDemand.halt
      else if 0 < minVent ∧ ventilates then { source := .minimum, dir := some .exhaust, speed := minVent, tier := some 2 }
      else FanDemand.idle

/-- The balancing speed of a balancing flow (R134). -/
def balancingSpeed (flow : Nat) (balancing : Int) : Nat :=
  if flow = 0 then 0 else roundDown 5 (balancing.natAbs * 100 / flow)

/-- The balancing direction (R134). -/
def balancingDir (balancing : Int) : AirDir := if 0 < balancing then .supply else .exhaust

/-- The demand of fan 2 (Table 31). -/
def resolveFan2 (gas : GasClass) (vent : Option Effect) (assist : Bool) (assistSpeed flow : Nat) (balancing : Int) : FanDemand :=
  if gas = .critical then { source := .critical, dir := some .exhaust, speed := 100, tier := some 0 }
  else
    match purgeOf vent with
    | some (d, n) => { source := .vent, dir := some d, speed := n, tier := some 1 }
    | none =>
      if assist then { source := .assist, dir := some .supply, speed := assistSpeed, tier := some 1 }
      else if vent.isSome then FanDemand.halt
      else if 0 < balancingSpeed flow balancing then
        { source := .balancing, dir := some (balancingDir balancing), speed := balancingSpeed flow balancing, tier := some 3 }
      else FanDemand.idle

/-- Does an entry call for neighbour assist: FRESH or STALE, its alarm summary present with GAS_CRITICAL active
(R126)? -/
def callsAssist (e : PeerEntry) : Bool :=
  (e.state = .fresh || e.state = .stale) && (match e.alarms with | some a => conditionSet a 0 | none => false)

/-- Neighbour assist applies: the lower or the upper neighbour calls for it, each where it exists below N_cfg (R126). -/
def assistApplies (s : State) : Bool :=
  (decide (1 ≤ s.own ∧ s.own - 1 < s.nCfg) && callsAssist (s.view.entries.getD (s.own - 1) PeerEntry.empty)) ||
  (decide (s.own + 1 < s.nCfg) && callsAssist (s.view.entries.getD (s.own + 1) PeerEntry.empty))

/-- A fan takes its demand; with a desired speed of 0 its granted speed is 0 with the record, and the requested
direction keeps its last value (R125, R127, assumption log 12). -/
def demandFan (d : FanDemand) (f : Fan) : Fan :=
  { f with source := d.source, requested := d.dir.getD f.requested, desired := d.speed, tier := d.tier,
           granted := if d.speed = 0 then 0 else f.granted }

/-! ## Running, coasting, ramping -/

/-- A rise begins: one 5 % step at once, never above the target, and the ramp timer while the target is not reached
(R130). -/
def beginRise (now : Nat) (c : FanConfig) (f : Fan) : Fan :=
  let p := min f.target (f.present + 5)
  { f with present := p, rampDue := if p < f.target then some (now + c.ramp) else none }

/-- The fan starts running in the requested direction (R128, R129). -/
def startFan (now : Nat) (c : FanConfig) (f : Fan) : Fan :=
  beginRise now c { f with state := .running, direction := some f.requested, coastDue := none, present := 0 }

/-- The fan is cut to 0 and coasts, its direction kept (R128). -/
def coastFan (now : Nat) (c : FanConfig) (f : Fan) : Fan :=
  { f with state := .coasting, present := 0, rampDue := none, coastDue := some (now + c.coast * 1000) }

/-- The fan follows its target speed and requested direction (R127, R128). A fan that its coast timer's expiry has just made
RUNNING is no exception: a request for 0 or for the other direction at the same instant makes it COASTING by R128, where R129
also says that it ends the instant running as last requested or STOPPED (DESIGN CHOICE, assumption log 31). -/
def driveFan (now : Nat) (c : FanConfig) (f0 : Fan) : Fan :=
  let f := { f0 with target := min f0.desired f0.granted }
  match f.state with
  | .stopped => if 0 < f.target then startFan now c f else f
  | .running =>
    if f.target = 0 ∨ f.direction ≠ some f.requested then coastFan now c f
    else if f.target ≤ f.present then { f with present := f.target, rampDue := none }
    else if f.rampDue = none then beginRise now c f
    else f
  | .coasting => if 0 < f.target ∧ f.direction = some f.requested then startFan now c f else f

/-- The coast timer expires (R129). -/
def coastExpires (now : Nat) (c : FanConfig) (f : Fan) : Fan :=
  if 0 < f.target then startFan now c f else { f with state := .stopped, coastDue := none }

/-- The ramp timer expires: a further 5 % step (R130). -/
def rampExpires (now : Nat) (c : FanConfig) (f : Fan) : Fan := beginRise now c f

/-! ## Shed balancing -/

/-- What a balancing step reads of a counted station: net flow, open-unsealed count, balance-available (R133). -/
structure BalanceView where
  netFlow : Int
  openUnsealed : Nat
  available : Bool
  deriving DecidableEq, Repr

/-- The counted entries of a balancing step: FRESH or STALE ones and the own one (R133). -/
def balanceViews (s : State) : List BalanceView :=
  (List.range s.nCfg).filterMap fun n =>
    if n = s.own then some { netFlow := s.air.netFlow, openUnsealed := s.doors.openUnsealed, available := s.air.available }
    else
      let e := s.view.entries.getD n PeerEntry.empty
      if e.state = .fresh ∨ e.state = .stale then
        e.beacon.map fun b => { netFlow := b.netFlow, openUnsealed := b.openUnsealed, available := b.available }
      else none

/-- The new balancing flow from the counted entries (R133 steps 1 to 7). -/
def balanceStep (c : AirConfig) (views : List BalanceView) (balancing : Int) : Int :=
  let fNet := (views.map BalanceView.netFlow).sum
  let dEff := c.deadband + (views.map BalanceView.openUnsealed).sum * c.relief
  if fNet.natAbs ≤ dEff then balancing
  else
    let m := views.countP BalanceView.available
    let limit : Int := (c.stepLimit * c.fan2.flow / 100 : Nat)
    let corr := clampInt (-limit) limit ((-fNet).tdiv m)
    clampInt (-(c.fan2.flow : Int)) c.fan2.flow (balancing + corr)

/-- A fan at the end of a start sequence at `now`: COASTING for its full coast time, direction UNKNOWN (R136). -/
def freshFan (now : Nat) (c : FanConfig) : Fan := { Fan.fresh with coastDue := some (now + c.coast * 1000) }

end Sys2Proof.Machine
end

