-- ==== Sys2Proof/Machine/DoorUnit.lean ====
section
/-! DEFINITION. The door unit's rules: door states, chatter window, curtains, boost, accumulators (spec 06). -/

namespace Sys2Proof.Machine

/-- The open states (R94). -/
def isOpenState : DoorState → Bool
  | .openSealed => true
  | .openUnsealed => true
  | .held => true
  | .closed => false
  | .fault => false

/-- The states counted as open and unsealed (R101). -/
def isUnsealedState : DoorState → Bool
  | .openUnsealed => true
  | .held => true
  | .closed => false
  | .openSealed => false
  | .fault => false

/-- The open time up to `now` is gathered into the remainder, each full second into the open seconds, held at
4294967295 (R103). -/
def gatherOpen (now : Nat) (d : Door) : Door :=
  match d.openMark with
  | none => d
  | some m =>
    let total := d.remainder + (now - m)
    { d with openSeconds := min 4294967295 (d.openSeconds + total / 1000), remainder := total % 1000, openMark := some now }

/-- The door enters a state at `now`, with hold limit `limit` in seconds: the open-since time is kept among the open
states, set on entering one and absent outside; the hold timer starts on entering OPEN_UNSEALED and stops otherwise
(R94 to R96, R99); the open time is gathered where the door leaves the open states. -/
def enterDoorState (now limit : Nat) (st : DoorState) (d : Door) : Door :=
  let wasOpen := isOpenState d.state
  let g := if wasOpen && !isOpenState st then gatherOpen now d else d
  { g with
    state := st
    openSince := if isOpenState st then (if wasOpen then d.openSince else some now) else none
    openMark := if isOpenState st then (if wasOpen then d.openMark else some now) else none
    holdSince := if st = .openUnsealed ∧ limit ≠ 0 then some now else none }

/-- The state a door takes from its debounced levels (R93, R99). -/
def stateFromLevels (d : Door) : DoorState :=
  if d.contact.level = some true then
    if d.trailer.level = some true then .openSealed else .openUnsealed
  else .closed

/-- A settling door that has both levels takes its state from them (R93). -/
def settleDoor (now limit : Nat) (d : Door) : Door :=
  if d.contact.level ≠ none ∧ d.trailer.level ≠ none then
    { enterDoorState now limit (stateFromLevels d) d with settling := false }
  else d

/-- The chatter window after a debounced change at `now`: entries 30 s old or older are dropped, this one is added
(R98). -/
def chatterAfter (now : Nat) (window : List Nat) : List Nat := window.filter (fun t => now - t < 30000) ++ [now]

/-- Entry into FAULT at `now` (R98). -/
def enterDoorFault (now : Nat) (d : Door) : Door :=
  { enterDoorState now 0 .fault d with chatter := [], stableSince := some now }

/-- A debounced change of either input, whose new level is stored already; `act` is the change of state it brings on a
door that the chatter window does not put into FAULT (R93 to R95, R98, R99). A later change of one input while the door is
still settling is stored alone: it enters no chatter window, and settling ends from the levels as they then stand (DESIGN
CHOICE, assumption log 29). -/
def debouncedChange (now limit : Nat) (act : Door → Door) (d : Door) : Door :=
  if d.settling then settleDoor now limit d
  else if d.state = .fault then { d with stableSince := some now }
  else
    let window := chatterAfter now d.chatter
    if 7 ≤ window.length then enterDoorFault now d else act { d with chatter := window }

/-- The contact's effect on the state: opening from CLOSED counts a cycle, held at 65535; closing from an open state
(R94, R103). -/
def contactAct (now limit : Nat) (isOpen : Bool) (d : Door) : Door :=
  if isOpen then
    if d.state = .closed then
      { enterDoorState now limit (stateFromLevels d) d with cycles := min 65535 (d.cycles + 1) }
    else d
  else if isOpenState d.state then enterDoorState now limit .closed d
  else d

/-- The trailer sensor's effect on the state (R95). -/
def trailerAct (now limit : Nat) (isPresent : Bool) (d : Door) : Door :=
  if isPresent then
    if isUnsealedState d.state then enterDoorState now limit .openSealed d else d
  else if d.state = .openSealed then enterDoorState now limit .openUnsealed d
  else d

/-- A debounced change of the contact (R94). -/
def contactChange (now limit : Nat) (isOpen : Bool) (d : Door) : Door :=
  debouncedChange now limit (contactAct now limit isOpen) { d with contact := d.contact.take isOpen }

/-- A debounced change of the trailer sensor (R95). -/
def trailerChange (now limit : Nat) (isPresent : Bool) (d : Door) : Door :=
  debouncedChange now limit (trailerAct now limit isPresent) { d with trailer := d.trailer.take isPresent }

/-- Is the debounced change of an input to its raw level due at `now` (R93)? -/
def changeDue (now : Nat) (i : Debounced) : Bool := i.admits 500 now .stable i.raw

/-- The contact's change, then the trailer sensor's where it is due at the same instant: one event (R95). -/
def contactFirst (now limit : Nat) (isOpen : Bool) (d : Door) : Door :=
  let d1 := contactChange now limit isOpen d
  if changeDue now d1.trailer then trailerChange now limit d1.trailer.raw d1 else d1

/-- The trailer sensor's change, then the contact's where it is due at the same instant: one event (R95). -/
def trailerFirst (now limit : Nat) (isPresent : Bool) (d : Door) : Door :=
  let d1 := trailerChange now limit isPresent d
  if changeDue now d1.contact then contactChange now limit d1.contact.raw d1 else d1

/-- The moment the hold timer reaches the hold limit (R96). -/
def holdDue (limit : Nat) (d : Door) : Option Nat := d.holdSince.map (fun t => t + limit * 1000)

/-- The hold timer expires: HELD, the timer stopped (R96). -/
def holdExpires (d : Door) : Door := { d with state := .held, holdSince := none }

/-- The moment the stable timer reaches 120 s (R99). -/
def stableDue (d : Door) : Option Nat := d.stableSince.map (fun t => t + 120000)

/-- The fault clears at `now`: the state is taken from the debounced levels (R99). -/
def clearDoorFault (now limit : Nat) (d : Door) : Door :=
  { enterDoorState now limit (stateFromLevels d) d with stableSince := none, chatter := [] }

/-- The moment the open-time remainder reaches 1000 ms (R103). -/
def openSecondDue (d : Door) : Option Nat := d.openMark.map (fun m => m + (1000 - d.remainder))

/-- The remainder has reached 1000 ms: the open seconds advance by one, the remainder falls by 1000 ms (R103). -/
def advanceOpenSecond (now : Nat) (d : Door) : Door :=
  match d.openMark with
  | none => d
  | some m =>
    { d with openSeconds := min 4294967295 (d.openSeconds + 1), remainder := d.remainder + (now - m) - 1000, openMark := some now }

/-- The accumulators and the remainder are cleared at a roll; an open door goes on counting from `now` (R103). -/
def clearDoorAccumulators (now : Nat) (d : Door) : Door :=
  { d with cycles := 0, openSeconds := 0, remainder := 0, openMark := d.openMark.map (fun _ => now) }

/-- The curtain's demand follows the state; without it the granted flag is cleared (R100). -/
def demandCurtain (d : Door) : Door :=
  let dem := isUnsealedState d.state && !d.settling
  { d with curtainDemanded := dem, curtainGranted := d.curtainGranted && dem }

/-- The curtain output is ON exactly while demanded and granted (R100). -/
def driveCurtain (d : Door) : Door := { d with curtainOn := d.curtainDemanded && d.curtainGranted }

/-- The open-unsealed count of the records (R101). -/
def countUnsealed (records : List Door) : Nat := records.countP (fun d => isUnsealedState d.state)

/-- The count formed afresh at `now`, and boost with it (R101, R102); `recovery` in seconds. -/
def settleBoost (now recovery : Nat) (d : Doors) : Doors :=
  let n := countUnsealed d.records
  if 0 < n then { d with openUnsealed := n, boost := true, recoveryDue := none }
  else if 0 < d.openUnsealed then
    if recovery = 0 then { d with openUnsealed := 0, boost := false, recoveryDue := none }
    else { d with openUnsealed := 0, boost := true, recoveryDue := some (now + recovery * 1000) }
  else { d with openUnsealed := 0 }

/-- A door record at the end of a start sequence at `now`: settling, its inputs' raw levels `contact` and `trailer` as first
sampled, with the accumulators of `kept` (R93, R104). -/
def freshDoor (now : Nat) (contact trailer : Bool) (kept : Option Door) : Door :=
  { state := .closed, settling := true, contact := Debounced.unknown now contact, trailer := Debounced.unknown now trailer,
    openSince := none, holdSince := none, chatter := [], stableSince := none, curtainDemanded := false,
    curtainGranted := false, curtainOn := false,
    cycles := (kept.map Door.cycles).getD 0, openSeconds := (kept.map Door.openSeconds).getD 0,
    remainder := (kept.map Door.remainder).getD 0, openMark := none }

end Sys2Proof.Machine
end

