-- ==== Sys2Proof/Machine/HeatUnit.lean ====
section
/-! DEFINITION. The heat unit's rules: temperature monitor, setpoint, stage calls, demands and switching (spec 07). -/

namespace Sys2Proof.Machine

/-! ## Temperature monitor -/

/-- A reading is faulty when it returns nothing or a value outside −400 to +600 (R107). -/
def readingFaulty (reading : Option Int) : Bool :=
  match reading with
  | none => true
  | some t => decide (t < -400 ∨ 600 < t)

/-- FREEZE after a reading `t` (R108). -/
def judgeFreeze (c : HeatConfig) (t : Int) (was : Bool) : Bool :=
  if t < c.criticalLow then true else if c.criticalLow + c.hysteresis ≤ t then false else was

/-- OVERHEAT after a reading `t` (R109). -/
def judgeOverheat (c : HeatConfig) (t : Int) (was : Bool) : Bool :=
  if c.high < t then true else if t ≤ c.high - c.hysteresis then false else was

/-- The fault test and the limits of a reading (R106 steps 1 and 2, R107 to R109). -/
def takeReading (c : HeatConfig) (reading : Option Int) (h : Heat) : Heat :=
  if readingFaulty reading then { h with fault := true, last := none, freeze := false, overheat := false }
  else
    match reading with
    | some t =>
      { h with fault := false, last := some t, freeze := judgeFreeze c t h.freeze, overheat := judgeOverheat c t h.overheat }
    | none => h

/-! ## Setpoint -/

/-- The base setpoint and its source (R111). -/
def baseSetpoint (page : Page) (bay : BayState) (rule : Option Effect) : Int × SetpointSource :=
  match rule with
  | some (.setpoint t) => (t, .override)
  | _ => if page.pageClass = .working ∧ bay ≠ .vacant then (page.occupied, .occupied) else (page.unoccupied, .unoccupied)

/-- The delta of a ruling HEAT_BOOST entry (R110, R111). -/
def ruleDelta (rule : Option Effect) : Int :=
  match rule with
  | some (.boost d) => d
  | _ => 0

/-- Does HOLD rule (R110)? -/
def holdRules (rule : Option Effect) : Bool :=
  match rule with
  | some .hold => true
  | _ => false

/-- The setpoint record formed afresh (R111). -/
def formSetpoint (c : HeatConfig) (page : Page) (bay : BayState) (boost : Bool) (rule : Option Effect) (h : Heat) : Heat :=
  let b := baseSetpoint page bay rule
  { h with setpoint := b.1, source := b.2, effective := b.1 + (if boost then c.boostDelta else 0) + ruleDelta rule }

/-! ## Stages -/

/-- The threshold call of stage `k` (counted from 0) at shortfall `e` (R112). -/
def judgeCall (c : HeatConfig) (k : Nat) (e : Int) (was : Bool) : Bool :=
  let th : Int := k * c.spacing
  if th < e then true else if e ≤ th - c.hysteresis then false else was

/-- What a row of Table 25 gives a stage. -/
inductive StageCall where
  | called (tier : Tier)
  | released (immediate : Bool)
  deriving DecidableEq, Repr

/-- The row of Table 25 that applies to stage `k` (counted from 0) with threshold call `call` (R113). -/
def stageCall (working hold : Bool) (h : Heat) (k : Nat) (call : Bool) : StageCall :=
  if h.fault then
    if hold then .released true
    else if working ∧ k = 0 then .called 2
    else .released false
  else if h.overheat then .released true
  else if h.freeze ∧ k = 0 then .called 0
  else if hold then .released true
  else if call then .called (if h.source = .unoccupied then 3 else 2)
  else .released false

/-- Has an ON stage's min-on time elapsed at `now` (R115)? -/
def minOnElapsed (now : Nat) (c : StageConfig) (st : Stage) : Bool := decide (st.since + c.minOn * 1000 ≤ now)

/-- Has an OFF stage's min-off time elapsed at `now` (R115)? -/
def minOffElapsed (now : Nat) (c : StageConfig) (st : Stage) : Bool := decide (st.since + c.minOff * 1000 ≤ now)

/-- The stage without a demand record: its granted flag is cleared with it (R114). -/
def noDemand (st : Stage) : Stage := { st with demand := .none, tier := none, granted := false }

/-- The demand of a stage under its row of Table 25, with the switching off that a release brings (R113, R116). It goes by the
clock: at the moment the min-on time ends, any event that forms the demand switches the stage off, though STAGE_MIN_ON_EXPIRY
may still wait (DESIGN CHOICE, assumption log 32). -/
def formStage (now : Nat) (c : StageConfig) (row : StageCall) (st : Stage) : Stage :=
  match row with
  | .called t => { st with demand := .called, tier := some t }
  | .released immediate =>
    if st.on = false then noDemand st
    else if immediate || minOnElapsed now c st then { noDemand st with on := false, since := now }
    else { st with demand := .holding, tier := some 3 }

/-- An ON stage whose granted flag is clear is cut at once; an OFF stage that is CALLED, granted and past its min-off
time is energised (R115, R116). It goes by the clock: at the moment the min-off time ends, any event that switches the stages
energises this one, though STAGE_MIN_OFF_EXPIRY may still wait (DESIGN CHOICE, assumption log 32). -/
def switchStage (now : Nat) (c : StageConfig) (st : Stage) : Stage :=
  if st.on && !st.granted then { st with on := false, since := now }
  else if !st.on && decide (st.demand = .called) && st.granted && minOffElapsed now c st then { st with on := true, since := now }
  else st

/-- Every stage's threshold call judged against the held reading, stage 1 being number 0; clear while the monitor is in
fault, kept while there is no reading yet (R107, R112). -/
def judgeCallsFrom (c : HeatConfig) (fault : Bool) (last : Option Int) (effective : Int) : Nat → List Stage → List Stage
  | _, [] => []
  | k, st :: sts =>
    { st with call := if fault then false
        else match last with
          | some t => judgeCall c k (effective - t) st.call
          | none => st.call } :: judgeCallsFrom c fault last effective (k + 1) sts

/-- The threshold calls of all stages judged (R112). -/
def judgeCalls (c : HeatConfig) (h : Heat) : Heat :=
  { h with stages := judgeCallsFrom c h.fault h.last h.effective 0 h.stages }

/-- Every stage's demand formed (R113); stage 1 is number 0. -/
def formStages (now : Nat) (working hold : Bool) (h : Heat) : Nat → List StageConfig → List Stage → List Stage
  | k, c :: cs, st :: sts => formStage now c (stageCall working hold h k st.call) st :: formStages now working hold h (k + 1) cs sts
  | _, _, sts => sts

/-- Every stage switched as its grant and times require (R115, R116). -/
def switchStages (now : Nat) : List StageConfig → List Stage → List Stage
  | c :: cs, st :: sts => switchStage now c st :: switchStages now cs sts
  | _, sts => sts

/-- The moment a HOLDING stage's min-on time elapses (R116). -/
def minOnDue (c : StageConfig) (st : Stage) : Option Nat :=
  if st.on ∧ st.demand = .holding then some (st.since + c.minOn * 1000) else none

/-- The moment a called and granted stage's min-off time elapses (R115). -/
def minOffDue (c : StageConfig) (st : Stage) : Option Nat :=
  if st.on = false ∧ st.demand = .called ∧ st.granted then some (st.since + c.minOff * 1000) else none

/-- Within an event a stage keeps the grant it had: the allocator sees its record as it stands at the event's end, where a
record that is withdrawn takes the granted flag with it (R114, R154). -/
def keepGrant (formed was : Stage) : Stage := { formed with granted := was.granted }

/-- A stage at the end of a start sequence at `now` (R118). -/
def freshStage (now : Nat) : Stage := { on := false, since := now, call := false, demand := .none, tier := none, granted := false }

/-! ## The unit at work on the station -/

/-- The heat unit forms its setpoint and judges its threshold calls (R111, R112). -/
def settleSetpoint (s : State) : State :=
  s.setHeat (judgeCalls s.cfg.heat
    (formSetpoint s.cfg.heat (currentPage s) s.lighting.bay s.doors.boost (rulingEffect s.overrides.heat) s.heat))

/-- The stages form their demands (R113). -/
def settleStages (s : State) : State :=
  s.setHeat { s.heat with
    stages := formStages s.clock (isWorking s) (holdRules (rulingEffect s.overrides.heat)) s.heat 0 s.cfg.heat.stages s.heat.stages }

/-- The heat unit switches its stages (R115, R116). -/
def driveStages (s : State) : State :=
  s.setHeat { s.heat with stages := switchStages s.clock s.cfg.heat.stages s.heat.stages }

/-- The stages form their demands before the event has ended (R113). -/
def reformStages (s : State) : State :=
  s.setHeat { s.heat with
    stages := alongside keepGrant (formStages s.clock (isWorking s) (holdRules (rulingEffect s.overrides.heat)) s.heat 0
      s.cfg.heat.stages s.heat.stages) s.heat.stages }

/-- A change within an event that the setpoint depends on: S and S_eff are formed afresh, the threshold calls judged and the
demands formed, before the event goes on (R111). -/
def reformHeat (s : State) : State := reformStages (settleSetpoint s)

/-- Steps 3 and 4 of a reading: every threshold call is judged, every demand formed and every stage switched; one that was
cut forms its demand afresh (R106, R116). -/
def stageReading (s : State) : State :=
  reformStages (driveStages (reformStages (s.setHeat (judgeCalls s.cfg.heat s.heat))))

end Sys2Proof.Machine
end

