-- ==== Sys2Proof/Machine/LightingUnit.lean ====
section
/-! DEFINITION. The lighting unit's rules: bay lighting state, levels and tiers, fading, dock lights (spec 05). -/

namespace Sys2Proof.Machine

/-- The bay lighting state follows occupied at `now` (R76): OCCUPIED while it is true; VACATING with the vacating timer
started when it becomes false. -/
def followOccupied (now hold : Nat) (occ : Bool) (l : Lighting) : Lighting :=
  if occ then
    if l.bay = .occupied then l else { l with bay := .occupied, leadInDue := none, vacatingDue := none }
  else if l.bay = .occupied then { l with bay := .vacating, leadInDue := none, vacatingDue := some (now + hold * 1000) }
  else l

/-- A lead-in trigger at `now` (R77). -/
def leadInTrigger (now leadIn : Nat) (l : Lighting) : Lighting :=
  if l.bay = .occupied then l
  else { l with bay := .leadIn, leadInDue := some (now + leadIn * 1000), vacatingDue := none }

/-- The bay becomes VACANT with both timers stopped (R76, R77). -/
def vacate (l : Lighting) : Lighting := { l with bay := .vacant, leadInDue := none, vacatingDue := none }

/-- The page has become an IDLE one: LEAD_IN ends in VACANT, every other state stays (R77). -/
def pageBecameIdle (l : Lighting) : Lighting := if l.bay = .leadIn then vacate l else l

/-- The desired level and tier of a following channel (Table 17). -/
def followChoice (page : Page) (bay : BayState) (i : Nat) (rule : Option OverrideEntry) : Nat × Tier :=
  match rule with
  | some e =>
    match e.effect with
    | .level percent _ => (percent, if e.source = .directive then 2 else 1)
    | _ => (0, 3)
  | none =>
    match bay with
    | .occupied => (page.work.getD i 0, 1)
    | .leadIn => (page.work.getD i 0, 2)
    | .vacating => (page.work.getD i 0, 2)
    | .vacant => (page.standby.getD i 0, 3)

/-- The desired level and tier of channel `i` under its output action mode (R80, R82). -/
def channelChoice (mode : ChannelMode) (page : Page) (bay : BayState) (stack : List OverrideEntry) (i : Nat) :
    Nat × Option Tier :=
  match mode with
  | .offForced => (0, none)
  | .fullForced => (100, some 0)
  | .follow => let c := followChoice page bay i (rulingFor i stack); (c.1, some c.2)
  | .followInverted => let c := followChoice page bay i (rulingFor i stack); (c.1, some c.2)

/-- The channel takes its choice; without a record its granted level is 0 (R83, R154). -/
def chooseChannel (choice : Nat × Option Tier) (c : Channel) : Channel :=
  { c with desired := choice.1, tier := choice.2, granted := if choice.2 = none then 0 else c.granted }

/-- The channels choose one after the other, channel `i` first (R82). -/
def chooseChannels (page : Page) (bay : BayState) (stack : List OverrideEntry) :
    Nat → List ChannelConfig → List Channel → List Channel
  | i, k :: ks, c :: cs => chooseChannel (channelChoice k.mode page bay stack i) c :: chooseChannels page bay stack (i + 1) ks cs
  | _, _, cs => cs

/-- The channel follows its target, the lesser of desired and granted level: a fall is taken at once, a rise begins, or
goes on from its start (R84 to R86). -/
def trackChannel (now : Nat) (c : Channel) : Channel :=
  let t := min c.desired c.granted
  if t ≤ c.present then { c with target := t, present := t, rise := none }
  else { c with target := t, rise := some (c.rise.getD (c.present, now)) }

/-- The present level of a rise from `l0` begun at `t0`, at `now`, with fade rate `fade` (R85). -/
def riseLevel (fade target l0 t0 now : Nat) : Nat := min target (l0 + fade * (now - t0) / 1000)

/-- The moment at which a rise reaches the next whole percent above the present level (R85). -/
def riseDue (fade : Nat) (c : Channel) : Option Nat :=
  match c.rise with
  | some (l0, t0) => if c.present < c.target then some (t0 + ((c.present + 1 - l0) * 1000 + fade - 1) / fade) else none
  | none => none

/-- A rise takes the level it has reached at `now`, and ends when that is the target (R85). -/
def advanceRise (now fade : Nat) (c : Channel) : Channel :=
  match c.rise with
  | some (l0, t0) =>
    let p := max c.present (riseLevel fade c.target l0 t0 now)
    { c with present := p, rise := if p < c.target then c.rise else none }
  | none => c

/-- A dock light's demand follows its door; without it the granted flag is cleared (R88, R89). -/
def demandDock (d : DockLight) (sealed_ : Bool) : DockLight :=
  { d with demanded := sealed_, granted := d.granted && sealed_ }

/-- The dock light output is ON exactly while demanded and granted (R89). -/
def driveDock (d : DockLight) : DockLight := { d with output := d.demanded && d.granted }

/-! ## The unit at work on the station -/

/-- The channels choose their levels and tiers (R82). -/
def settleChannels (s : State) : State :=
  s.setLighting { s.lighting with
    channels := chooseChannels (currentPage s) s.lighting.bay s.overrides.light 0 s.cfg.lighting.channels s.lighting.channels }

/-- A change reported within an event: the channels choose afresh and follow their new targets under the grants they hold, so a
fall is taken at once, before the event goes on (R42, R82, R84, R86; assumption log 19). -/
def reformChannels (s : State) : State :=
  let t := settleChannels s
  t.setLighting { t.lighting with channels := t.lighting.channels.map (trackChannel s.clock) }

end Sys2Proof.Machine
end

