-- ==== Sys2Proof/Machine/Allocator.lean ====
section
/-! DEFINITION. The allocator's rules: load list and requests, shed computation, applied grants, local realisation
(spec 10). -/

namespace Sys2Proof.Machine

/-- A figure held at 65535 when larger (R155, R156, R170). -/
def held16 (n : Nat) : Nat := min 65535 n

/-! ## Load list -/

/-- How a load is fitted (Table 38). -/
inductive Fitting where
  | dimmable
  | stepped
  | whole
  deriving DecidableEq, Repr

/-- A demand record: desired setting and tier (R154). A whole load's desired setting is 1. -/
structure Demand where
  setting : Nat
  tier : Tier
  deriving DecidableEq, Repr

/-- A place of the load list (R154): its load, its record or none, its granted and its present setting. -/
structure Load where
  fitting : Fitting
  rated : Nat
  demand : Option Demand
  granted : Nat
  present : Nat
  deriving DecidableEq, Repr

/-- The nameplate of a load at a setting (R155). -/
def nameplate (fitting : Fitting) (rated setting : Nat) : Nat :=
  match fitting with
  | .dimmable => rated * setting / 100
  | .stepped => fanPower rated setting
  | .whole => if setting = 0 then 0 else rated

/-- A lighting channel's place. -/
def channelLoad (c : ChannelConfig) (ch : Channel) : Load :=
  { fitting := .dimmable, rated := c.rated, demand := ch.tier.map (fun t => { setting := ch.desired, tier := t }),
    granted := ch.granted, present := ch.present }

/-- A dock light's place: tier 1 while demanded (R88). -/
def dockLoad (rated : Nat) (d : DockLight) : Load :=
  { fitting := .whole, rated := rated, demand := if d.demanded then some { setting := 1, tier := 1 } else none,
    granted := d.granted.toNat, present := d.output.toNat }

/-- A fan's place: a record while its desired speed is above 0 (R127). -/
def fanLoad (c : FanConfig) (f : Fan) : Load :=
  { fitting := .stepped, rated := c.rated,
    demand := if f.desired = 0 then none else f.tier.map (fun t => { setting := f.desired, tier := t }),
    granted := f.granted, present := f.present }

/-- A curtain's place: tier 1 while demanded (R100). -/
def curtainLoad (rated : Nat) (d : Door) : Load :=
  { fitting := .whole, rated := rated, demand := if d.curtainDemanded then some { setting := 1, tier := 1 } else none,
    granted := d.curtainGranted.toNat, present := d.curtainOn.toNat }

/-- A heater stage's place: a record while CALLED or HOLDING (R114). -/
def stageLoad (c : StageConfig) (st : Stage) : Load :=
  { fitting := .whole, rated := c.rated,
    demand := if st.demand = .none then none else st.tier.map (fun t => { setting := 1, tier := t }),
    granted := st.granted.toNat, present := st.on.toNat }

/-- The load list in the order of Table 38. -/
def loadList (s : State) : List Load :=
  List.zipWith channelLoad s.cfg.lighting.channels s.lighting.channels
    ++ List.zipWith dockLoad s.cfg.doors.docks s.lighting.docks
    ++ [fanLoad s.cfg.air.fan1 s.air.fan1, fanLoad s.cfg.air.fan2 s.air.fan2]
    ++ List.zipWith curtainLoad s.cfg.doors.curtains s.doors.records
    ++ List.zipWith stageLoad s.cfg.heat.stages s.heat.stages

/-- The demand records of the load list (R154). -/
def demandRecords (s : State) : List (Option Demand) := (loadList s).map Load.demand

/-- A load's share of the request of tier `t` (R155). -/
def requestShare (t : Tier) (l : Load) : Nat :=
  match l.demand with
  | some d => if d.tier = t then nameplate l.fitting l.rated d.setting else 0
  | none => 0

/-- The sum of the nameplates demanded in tier `t` (R155). -/
def tierSum (loads : List Load) (t : Tier) : Nat := (loads.map (requestShare t)).sum

/-- The own requests formed afresh, the unaccounted term in Q0 (R155). -/
def formRequests (loads : List Load) (term : Nat) : Requests :=
  { q0 := held16 (tierSum loads 0 + term), q1 := held16 (tierSum loads 1), q2 := held16 (tierSum loads 2),
    q3 := held16 (tierSum loads 3) }

/-- The energised draw E (R156). -/
def energisedDraw (loads : List Load) : Nat := held16 (loads.map (fun l => nameplate l.fitting l.rated l.present)).sum

/-! ## Shed computation -/

/-- How a configured station enters the computation (R158). -/
inductive Standing where
  | counted (r : Requests)
  | reserved (power : Nat)
  deriving DecidableEq, Repr

/-- The standing of a peer's entry (R158). -/
def standingOf (share : Nat) (e : PeerEntry) : Standing :=
  match e.state, e.beacon with
  | .absent, _ => .reserved share
  | .lost, some b => .reserved (max share b.draw)
  | .fresh, some b => if b.link = .joined then .counted b.requests else .reserved (max share b.draw)
  | .stale, some b => if b.link = .joined then .counted b.requests else .reserved (max share b.draw)
  | _, _ => .reserved share

/-- The standings of stations 0 to N_cfg − 1, the own one counted with the own requests (R158). -/
def standings (s : State) : List Standing :=
  (List.range s.nCfg).map fun n =>
    if n = s.own then .counted s.alloc.requests
    else standingOf s.cfg.isolatedShare (s.view.entries.getD n PeerEntry.empty)

/-- The reserve a station takes. -/
def Standing.reserve : Standing → Nat
  | .counted _ => 0
  | .reserved p => p

/-- A counted station's request in tier `t`; 0 for a reserved one. -/
def Standing.request (t : Tier) : Standing → Nat
  | .reserved _ => 0
  | .counted r => match t with
    | 0 => r.q0
    | 1 => r.q1
    | 2 => r.q2
    | 3 => r.q3

/-- R_sum (R158). -/
def reserveSum (l : List Standing) : Nat := (l.map Standing.reserve).sum

/-- D0 (R159). -/
def tierZeroDemand (l : List Standing) : Nat := (l.map (Standing.request 0)).sum

/-- The requests of a tier: the Q_t above 0 of the counted stations (R160). -/
def tierRequests (t : Tier) (l : List Standing) : List Nat := (l.map (Standing.request t)).filter (fun q => 0 < q)

/-- A request in its place of the ascending order (R160). -/
def insertAscending (q : Nat) : List Nat → List Nat
  | [] => [q]
  | x :: xs => if q ≤ x then q :: x :: xs else x :: insertAscending q xs

/-- The requests in ascending order (R160). -/
def sortAscending : List Nat → List Nat
  | [] => []
  | q :: qs => insertAscending q (sortAscending qs)

/-- The water-fill walk over requests in ascending order with budget `r`: each request with its grant (R160). -/
def waterFill (r : Nat) : List Nat → List (Nat × Nat)
  | [] => []
  | q :: qs =>
    if q * (qs.length + 1) ≤ r then (q, q) :: waterFill (r - q) qs
    else (q :: qs).map (fun x => (x, r / (qs.length + 1)))

/-- One tier: the grants of its requests and the budget left for the next tier (R160). -/
def fillTier (r : Nat) (requests : List Nat) : List (Nat × Nat) × Nat :=
  if requests.sum ≤ r then (requests.map (fun q => (q, q)), r - requests.sum)
  else (waterFill r (sortAscending requests), 0)

/-- The grant that a tier's fill gives a request; a request of 0 is granted 0 (R160). -/
def grantOf (fill : List (Nat × Nat)) (q : Nat) : Nat := ((fill.find? (fun p => p.1 == q)).map Prod.snd).getD 0

/-- The result of a shed computation: whether D0 + R_sum exceeds C, and the fill of tiers 1 to 3 (R159, R160). -/
structure ShedResult where
  exceeded : Bool
  fill1 : List (Nat × Nat)
  fill2 : List (Nat × Nat)
  fill3 : List (Nat × Nat)
  deriving DecidableEq, Repr

/-- The shed computation with cap `c` over the standings (R159, R160). A budget below 0 is taken as 0. -/
def shedComputation (c : Nat) (l : List Standing) : ShedResult :=
  let spent := reserveSum l + tierZeroDemand l
  let f1 := fillTier (c - spent) (tierRequests 1 l)
  let f2 := fillTier f1.2 (tierRequests 2 l)
  let f3 := fillTier f2.2 (tierRequests 3 l)
  { exceeded := decide (c < spent), fill1 := f1.1, fill2 := f2.1, fill3 := f3.1 }

/-- The own computed grants (R160). -/
def ownGrants (r : ShedResult) (q : Requests) : Grants :=
  { g1 := grantOf r.fill1 q.q1, g2 := grantOf r.fill2 q.q2, g3 := grantOf r.fill3 q.q3 }

/-! ## Applied grants -/

/-- The lesser of two grants, tier by tier (R161 step 1). -/
def Grants.lesser (a b : Grants) : Grants := { g1 := min a.g1 b.g1, g2 := min a.g2 b.g2, g3 := min a.g3 b.g3 }

/-- Is some grant of `a` above that of `b`? -/
def Grants.exceeds (a b : Grants) : Bool := decide (b.g1 < a.g1 ∨ b.g2 < a.g2 ∨ b.g3 < a.g3)

/-- The applied grants move toward new computed grants at `now` (R161). -/
def moveApplied (now interval : Nat) (computed : Grants) (a : Alloc) : Alloc :=
  let applied := a.applied.lesser computed
  { a with
    computed := computed
    applied := applied
    pendingDue := if computed.exceeds applied then some (a.pendingDue.getD (now + interval)) else none }

/-- A recomputation in JOINED (R158 to R161). -/
def recomputeJoined (s : State) : Alloc :=
  let r := shedComputation s.cfg.header.cap (standings s)
  { moveApplied s.clock s.cfg.header.interval (ownGrants r s.alloc.requests) s.alloc with capExceeded := r.exceeded }

/-- A recomputation outside JOINED: the allowance in tier 1, applied at once (R163). -/
def recomputeAllowance (s : State) : Alloc :=
  let g : Grants := { g1 := allowance s, g2 := 0, g3 := 0 }
  { s.alloc with computed := g, applied := g, pendingDue := none, capExceeded := false }

/-- A recomputation: the own requests are formed afresh, then the grants (R155, R157). -/
def recompute (s : State) : State :=
  let s1 := s.setAlloc { s.alloc with requests := formRequests (loadList s) s.alloc.term }
  s1.setAlloc (if s1.view.link = .joined then recomputeJoined s1 else recomputeAllowance s1)

/-! ## Local realisation -/

/-- The largest `n` up to a bound that a test admits, 0 if none does. -/
def largestUpTo (ok : Nat → Bool) : Nat → Nat
  | 0 => 0
  | n + 1 => if ok (n + 1) then n + 1 else largestUpTo ok n

/-- The granted setting of a load fitted against what is left of its tier's budget (R166). -/
def fitLoad (l : Load) (desired left : Nat) : Nat :=
  match l.fitting with
  | .dimmable => largestUpTo (fun x => decide (nameplate .dimmable l.rated x ≤ left)) desired
  | .stepped => 5 * largestUpTo (fun k => decide (nameplate .stepped l.rated (5 * k) ≤ left)) (desired / 5)
  | .whole => if l.rated ≤ left then 1 else 0

/-- One tier fitted in load-list order against a budget: the list with that tier's granted settings, and the remainder
(R165, R166). -/
def fitTier (t : Tier) : Nat → List Load → List Load × Nat
  | left, [] => ([], left)
  | left, l :: ls =>
    match l.demand with
    | some d =>
      if d.tier = t then
        let g := fitLoad l d.setting left
        let rest := fitTier t (left - nameplate l.fitting l.rated g) ls
        ({ l with granted := g } :: rest.1, rest.2)
      else
        let rest := fitTier t left ls
        (l :: rest.1, rest.2)
    | none =>
      let rest := fitTier t left ls
      (l :: rest.1, rest.2)

/-- Tier 0 granted in full, a place without a record granted 0 (R164). -/
def fitTierZero (l : Load) : Load :=
  match l.demand with
  | some d => if d.tier = 0 then { l with granted := d.setting } else l
  | none => { l with granted := 0 }

/-- The load list fitted to the applied grants, the remainder of each tier carried to the next (R164, R165). -/
def fitLoads (g : Grants) (loads : List Load) : List Load :=
  let t1 := fitTier 1 g.g1 (loads.map fitTierZero)
  let t2 := fitTier 2 (g.g2 + t1.2) t1.1
  (fitTier 3 (g.g3 + t2.2) t2.1).1

/-- The granted settings of the load list after a realisation (R164). -/
def grantedSettings (s : State) : List Nat := (fitLoads s.alloc.applied (loadList s)).map Load.granted

/-- The granted settings are returned to the owners in the order of the load list (R167). -/
def returnGrants (g : List Nat) (s : State) : State :=
  let nDocks := s.lighting.docks.length
  let nDoors := s.doors.records.length
  let nCh := s.lighting.channels.length
  let docks := g.drop nCh
  let fans := docks.drop nDocks
  let curtains := fans.drop 2
  let stages := curtains.drop nDoors
  let s1 := s.setLighting { s.lighting with
    channels := alongside (fun (c : Channel) x => { c with granted := x }) s.lighting.channels g
    docks := alongside (fun (d : DockLight) x => { d with granted := decide (x ≠ 0) }) s.lighting.docks docks }
  let s2 := s1.setAir { s1.air with
    fan1 := { s1.air.fan1 with granted := fans.getD 0 0 }
    fan2 := { s1.air.fan2 with granted := fans.getD 1 0 } }
  let s3 := s2.setDoors { s2.doors with
    records := alongside (fun (d : Door) x => { d with curtainGranted := decide (x ≠ 0) }) s2.doors.records curtains }
  s3.setHeat { s3.heat with
    stages := alongside (fun (st : Stage) x => { st with granted := decide (x ≠ 0) }) s3.heat.stages stages }

/-- A local realisation (R164, R167). -/
def realise (s : State) : State := returnGrants (grantedSettings s) s

/-! ## Meter -/

/-- The measured power M at `now` (R170). -/
def measuredPower (c : MeterConfig) (now : Nat) (newest previous : Option Nat) : Nat :=
  match newest, previous with
  | some n, some p =>
    if c.creep * 1000 < now - n then 0
    else held16 (c.weight * 36000 / max (n - p) (now - n))
  | _, _ => 0

/-- The excess test and the runs of a meter check, with M formed and E as it stands (R171). -/
def meterRuns (margin : Nat) (a : Alloc) : Alloc :=
  let excess := decide (a.energised + margin < a.measured)
  if a.unaccounted then
    if excess then { a with clearRun := 0, term := a.measured - a.energised }
    else if 10 ≤ a.clearRun + 1 then { a with clearRun := 0, unaccounted := false, term := 0 }
    else { a with clearRun := a.clearRun + 1, term := a.measured - a.energised }
  else if excess then
    if 10 ≤ a.excessRun + 1 then { a with excessRun := 0, unaccounted := true, term := a.measured - a.energised }
    else { a with excessRun := a.excessRun + 1 }
  else { a with excessRun := 0 }

end Sys2Proof.Machine
end

