-- ==== Sys2Proof/Machine/ShiftUnit.lean ====
section
/-! DEFINITION. The shift tracker's rules: adoption, changeover, lower-page settling, origination (spec 03). -/

namespace Sys2Proof.Machine

/-- The page changes and is reported: LEAD_IN ends where the new page is an IDLE one, the lighting channels take the new page's
levels, a fall at once, and the heat unit forms its setpoint, calls and demands from it (R42, R77, R82, R86, R111). A page that
stays is no change. That a LEAD_IN which ends with the page does so before the channels choose is the model's choice (DESIGN
CHOICE, assumption log 19). -/
def changePage (p : Fin 4) (s : State) : State :=
  if p = s.shift.page then s
  else
    let s1 := s.setShift { s.shift with page := p }
    reformHeat (reformChannels (if isWorking s1 then s1 else s1.setLighting (pageBecameIdle s1.lighting)))

/-- A CHANGEOVER entry (R52). -/
def changeoverEntry (effect : Effect) (expiry : Nat) : OverrideEntry :=
  { source := .changeover, origin := none, precedence := 0, effect := effect, expiry := some expiry }

/-- The two CHANGEOVER entries of the current page are offered, to end at `expiry` (R52, R51). -/
def offerChangeover (expiry : Nat) (s : State) : State :=
  let pg := currentPage s
  s.setOverrides { s.overrides with
    light := offerEntry (changeoverEntry (.level pg.changeoverLevel 0xF) expiry) s.overrides.light
    heat := offerEntry (changeoverEntry (.setpoint pg.occupied) expiry) s.overrides.heat }

/-- CHANGEOVER entries still in the stacks are removed (R52). -/
def removeChangeover (s : State) : State :=
  s.setOverrides { s.overrides with
    light := withoutIdentity .changeover none s.overrides.light
    heat := withoutIdentity .changeover none s.overrides.heat }

/-- Step 4 of an adoption: the changeover of the new page starts, or with duration 0 none runs (R52). -/
def startChangeover (s : State) : State :=
  let d := (currentPage s).changeover
  if d = 0 then removeChangeover (s.setShift { s.shift with phase := .steady, changeoverDue := none })
  else
    let due := s.clock + d * 1000
    offerChangeover due (s.setShift { s.shift with phase := .changeover, changeoverDue := some due })

/-- The last-shift summary written at a roll of epoch `e` (R55); the doors' open time is gathered up to now. -/
def summaryOf (e : Byte) (s : State) : ShiftSummary :=
  { epoch := e, energy := s.shift.energy, peak := s.shift.peak, crossings := s.shift.crossings,
    doors := s.doors.records.map fun d => let g := gatherOpen s.clock d; (g.cycles, g.openSeconds) }

/-- Steps 1 and 2 of an adoption: the accumulators roll into the summary if the old epoch was known, and are cleared
(R50, R55, R103). -/
def rollAccumulators (s : State) : State :=
  let summary := match s.shift.epoch with
    | some e => some (summaryOf e s)
    | none => s.shift.summary
  (s.setShift { s.shift with energy := 0, peak := 0, crossings := 0, summary := summary }).setDoors
    { s.doors with records := s.doors.records.map (clearDoorAccumulators s.clock) }

/-- Adoption of a new epoch with its page (R50). -/
def adopt (e : Byte) (p : Fin 4) (s : State) : State :=
  let s1 := rollAccumulators s
  let s2 := changePage p (s1.setShift { s1.shift with epoch := some e })
  let s3 := startChangeover s2
  s3.setShift { s3.shift with lockoutDue := some (s3.clock + 60000) }

/-- Lower-page settling: the page becomes the received one; in CHANGEOVER fresh entries end with the timer (R51). -/
def settleLowerPage (p : Fin 4) (s : State) : State :=
  let s1 := changePage p s
  match s1.shift.phase, s1.shift.changeoverDue with
  | .changeover, some due => offerChangeover due s1
  | _, _ => s1

/-- Is epoch `new` newer than `cur`: (new − cur) mod 256 in 1..127 (00_scope.md 0.8)? -/
def epochNewer (cur new : Byte) : Bool := decide (1 ≤ (new - cur).toNat ∧ (new - cur).toNat ≤ 127)

/-- The adoption test on a received epoch and page (R49). -/
def adoptionTest (e : Byte) (p : Fin 4) (s : State) : State :=
  match s.shift.epoch with
  | none => adopt e p s
  | some cur =>
    if epochNewer cur e then adopt e p s
    else if e = cur ∧ p < s.shift.page then settleLowerPage p s
    else s

/-- The epoch an origination forms: one above the current one, or 1 from UNKNOWN (R46). -/
def originEpoch (cur : Option Byte) : Byte :=
  match cur with
  | some e => e + 1
  | none => 1

/-- Origination: the new epoch and the next page are adopted, then a SHIFT is offered (R46). -/
def originate (s : State) : State :=
  let e := originEpoch s.shift.epoch
  let p := (currentPage s).next
  offer (.shift e p) (adopt e p s)

end Sys2Proof.Machine
end

