-- ==== Sys2Proof/Machine/TrafficUnit.lean ====
section
/-! DEFINITION. The traffic unit's rules: gate decoder, occupancy count, presence zones, UNCERTAIN and lead-in
(spec 04). -/

namespace Sys2Proof.Machine

/-! ## Gate decoder -/

/-- The step of a single-beam change: +1 along the UP cycle (0,0) (1,0) (1,1) (0,1) (0,0), −1 against it (Figure 6). -/
def gateStep (a b a' b' : Bool) : Int :=
  match a, b, a', b' with
  | false, false, true, false => 1
  | true, false, true, true => 1
  | true, true, false, true => 1
  | false, true, false, false => 1
  | false, false, false, true => -1
  | false, true, true, true => -1
  | true, true, true, false => -1
  | true, false, false, false => -1
  | _, _, _, _ => 0

/-- The speed class of a crossing with transit time `t` ms over `spacing` mm; no transit time is UNKNOWN (R61). -/
def speedClassOf (spacing : Nat) (transit : Option Nat) : SpeedClass :=
  match transit with
  | none => .unknown
  | some t => if 5 * t < 2 * spacing then .fast else if t > 2 * spacing then .slow else .normal

/-- The transit time: from the first stamp to the second, clamped to 65535, only for a clean passage (R60). -/
def transitTime (t : Traffic) : Option Nat :=
  if t.clean then
    match t.first, t.second with
    | some a, some b => some (min 65535 (b - a))
    | _, _ => none
  else none

/-- The decoder ends a passage or is put back: position 0, stamps absent (R59, R62). -/
def clearPassage (t : Traffic) : Traffic := { t with position := 0, first := none, second := none }

/-- The decoder takes one step at moment `now`: position, stamps and the clean mark (R59, R60). -/
def decoderStep (now : Nat) (step : Int) (t : Traffic) : Traffic :=
  let p := t.position + step
  let begins := t.position = 0 ∧ (p = 1 ∨ p = -1)
  let back := (t.position = 2 ∧ p = 1) ∨ (t.position = -2 ∧ p = -1) ∨ (t.position = 3 ∧ p = 2) ∨ (t.position = -3 ∧ p = -2)
  { t with
    position := p
    first := if begins then some now else t.first
    second := if begins then none
      else if (p = 2 ∨ p = -2) ∧ t.second = none then some now else t.second
    clean := if begins then true else if back then false else t.clean }

/-- WAITING with the held pair at (0,0) and the gate OK becomes TRACKING at position 0 (R59). -/
def beginTracking (t : Traffic) : Traffic :=
  if t.gate = .ok ∧ t.tracking = false ∧ t.beamA = false ∧ t.beamB = false then
    { clearPassage t with tracking := true }
  else t

/-- The direction a passage over at position `p` crossed in, if it is a crossing (R59). -/
def crossingOf (p : Int) : Option Travel := if p = 4 then some .up else if p = -4 then some .down else none

/-- A change of the occupancy count: one that would leave 0..15 leaves it and sets UNCERTAIN; any other restarts the
vacancy timer (R68, R70). -/
def changeCount (d : Int) (t : Traffic) : Traffic :=
  let n := (t.count : Int) + d
  if n < 0 ∨ 15 < n then { t with uncertain := true }
  else { t with count := n.toNat, vacancySince := if n.toNat = t.count then t.vacancySince else none }

/-- Entry into gate FAULT at `now` (R63). -/
def enterGateFault (now : Nat) (t : Traffic) : Traffic :=
  { t with gate := .fault, uncertain := true, quietSince := some now, invalid := [] }

/-- An invalid transition at `now` while the gate is OK (R62); the held pair is already the new one. -/
def invalidWhileOk (now : Nat) (t : Traffic) : Traffic :=
  let t1 := { clearPassage t with tracking := false, invalid := t.invalid.filter (fun e => now - e ≤ 60000) }
  if 2 ≤ t1.invalid.length then enterGateFault now t1
  else beginTracking { t1 with invalid := t1.invalid ++ [now] }

/-- The gate fault clears (R63). -/
def clearGateFault (t : Traffic) : Traffic :=
  beginTracking { clearPassage t with gate := .ok, quietSince := none, tracking := false, invalid := [] }

/-! ## Presence zones -/

/-- A zone is active while its input is asserted and while its timer runs (R69). -/
def Zone.active (z : Zone) : Bool := z.asserted || z.releasedAt.isSome

/-- The bay is present while any zone is active (R69). -/
def present (t : Traffic) : Bool := t.zones.any Zone.active

/-- The bay is occupied while the count is above 0 or the bay is present (R72). -/
def occupied (t : Traffic) : Bool := decide (0 < t.count) || present t

/-! ## UNCERTAIN and the vacancy timer -/

/-- The test of R71, made at the end of every event. -/
def judgeUncertain (t : Traffic) : Traffic :=
  { t with uncertain := if t.gate = .fault then true else if t.count = 0 ∧ present t = false then false else t.uncertain }

/-- The vacancy timer runs while the count is above 0 and the bay is not present (R70). -/
def judgeVacancy (now : Nat) (t : Traffic) : Traffic :=
  { t with vacancySince := if 0 < t.count ∧ present t = false then some (t.vacancySince.getD now) else none }

/-- The vacancy limit in ms: V while UNCERTAIN is clear, a quarter of it while it is set (R70). -/
def vacancyLimit (vacancy : Nat) (uncertain : Bool) : Nat := if uncertain then vacancy * 250 else vacancy * 1000

/-- Vacancy correction: the count is set to 0 and the timer stops (R70). -/
def correctVacancy (t : Traffic) : Traffic := { t with count := 0, vacancySince := none }

/-- Has the vacancy timer reached its limit at `now` (R70)? -/
def vacancyReached (vacancy now : Nat) (t : Traffic) : Bool :=
  reached (t.vacancySince.map (fun v => v + vacancyLimit vacancy t.uncertain)) now

/-- The end of an event at the traffic unit: the test of R71, the vacancy timer, and the correction made at once when
UNCERTAIN has become set past a quarter of V (R70, R71). -/
def settleTraffic (vacancy now : Nat) (wasUncertain : Bool) (t : Traffic) : Traffic :=
  let t1 := judgeVacancy now (judgeUncertain t)
  if t1.uncertain && !wasUncertain && vacancyReached vacancy now t1 then judgeUncertain (correctVacancy t1) else t1

/-! ## Lead-in -/

/-- Does a crossing of this speed class light a bay at this distance ahead (table of R73)? -/
def leadInReach (speed : SpeedClass) (distance : Int) : Bool :=
  match speed with
  | .fast => distance = 1 || distance = 2
  | .normal => distance = 1
  | .unknown => distance = 1
  | .slow => false

/-- The distance ahead of station `own` for a HANDOFF from `origin` (R73). -/
def distanceAhead (own origin : Nat) (dir : Travel) : Int :=
  match dir with
  | .up => (own : Int) - ((origin : Int) + 1)
  | .down => (origin : Int) - (own : Int)

/-! ## The lower gate -/

/-- The count check on a beacon of the lower neighbour, and its gate status check (R67). -/
def lowerBeacon (count : Byte) (gate : GateStatus) (t : Traffic) : Traffic :=
  { t with
    uncertain := t.uncertain || decide (t.lowerSeen ≠ none ∧ t.lowerSeen ≠ some count) || decide (gate = .fault)
    lowerSeen := some count }

/-- The count change and gap check on a HANDOFF of the lower neighbour (R66). -/
def lowerHandoff (h : Handoff) (t : Traffic) : Traffic :=
  let t1 := changeCount (match h.direction with | .up => 1 | .down => -1) t
  { t1 with
    uncertain := t1.uncertain || decide (t.lowerSeen ≠ none ∧ t.lowerSeen ≠ some (h.count - 1))
    lowerSeen := some h.count }

end Sys2Proof.Machine
end

