-- ==== Sys2Proof/Machine/Settle.lean ====
section
/-! DEFINITION. The end of an event: what every block hands on once its own change is made, in the spec's order
(R72, R78, R97, R101, R111, R126, R154, R157, R164, R167, R156, R149; assumption log 19). -/

namespace Sys2Proof.Machine

/-- What an event asks of the allocator by itself (R157, R164). -/
inductive Work where
  | none
  | realise
  | recompute
  deriving DecidableEq, Repr

/-! ## What the units publish -/

/-- The traffic unit judges UNCERTAIN and the vacancy timer, and the bay lighting state follows occupied (R71, R72, R76). -/
def settleBay (before s : State) : State :=
  let t := settleTraffic s.cfg.gate.vacancy s.clock before.traffic.uncertain s.traffic
  (s.setTraffic t).setLighting (followOccupied s.clock s.cfg.lighting.vacatingHold (occupied t) s.lighting)

/-- The door unit forms its count, boost and the curtains' demands, the lighting unit the dock lights' demands
(R97, R100 to R102, R88). -/
def settleDoors (s : State) : State :=
  let d := settleBoost s.clock s.cfg.doors.recovery s.doors
  let records := d.records.map demandCurtain
  (s.setDoors { d with records := records }).setLighting { s.lighting with
    docks := alongside (fun (k : DockLight) (r : Door) => demandDock k (r.state = .openSealed)) s.lighting.docks records }

/-- Does a source of fan 2 set the balancing flow to 0 (R132)? -/
def takesFan2 (source : FanSource) : Bool := source = .critical || source = .vent || source = .assist

/-- Both fans take their demands; the balancing record follows fan 2's source and the link state (R125, R126, R132). -/
def settleFans (s : State) : State :=
  let flow := if s.view.link = .joined then s.air.balancing else 0
  let vent := rulingEffect s.overrides.vent
  let d1 := resolveFan1 s.air.gasClass s.cfg.air.actionSpeed vent (currentPage s).minVent (isWorking s || occupied s.traffic)
  let d2 := resolveFan2 s.air.gasClass vent (assistApplies s) s.cfg.air.assistSpeed s.cfg.air.fan2.flow flow
  s.setAir { s.air with
    fan1 := demandFan d1 s.air.fan1
    fan2 := demandFan d2 s.air.fan2
    balancing := if takesFan2 d2.source then 0 else flow
    available := d2.source = .none || d2.source = .balancing }

/-- Every unit publishes its demand records as they stand at the end of the event (R154). -/
def publish (before s : State) : State :=
  settleStages (settleChannels (settleFans (settleSetpoint (settleDoors (settleBay before s)))))

/-! ## Grants and what the owners do with them -/

/-- The lighting unit drives its channels and dock lights (R84 to R86, R89). -/
def driveLights (s : State) : State :=
  s.setLighting { s.lighting with
    channels := s.lighting.channels.map (trackChannel s.clock), docks := s.lighting.docks.map driveDock }

/-- The door unit drives its curtains (R100). -/
def driveCurtains (s : State) : State := s.setDoors { s.doors with records := s.doors.records.map driveCurtain }

/-- The air unit drives its fans (R128). -/
def driveFans (s : State) : State :=
  s.setAir { s.air with
    fan1 := driveFan s.clock s.cfg.air.fan1 s.air.fan1, fan2 := driveFan s.clock s.cfg.air.fan2 s.air.fan2 }

/-- Each owner drives its outputs toward the lesser of the desired and the granted setting; a stage that was switched
off forms its demand afresh (R167, R116). -/
def driveOwners (s : State) : State := settleStages (driveStages (driveFans (driveCurtains (driveLights s))))

/-- The allocator does what is asked of it: a recomputation is followed by a realisation (R157, R164). -/
def allocate (work : Work) (s : State) : State :=
  match work with
  | .none => s
  | .realise => realise s
  | .recompute => realise (recompute s)

/-- The allocator works and the owners act on the grants; where that withdraws a record, a further recomputation and
realisation follow (R167). Each round but the last withdraws the record of a HOLDING stage, so `rounds` above the number
of stages lets the steps come to rest. -/
def settleLoads : Nat → Work → State → State
  | 0, _, s => s
  | rounds + 1, work, s =>
    let a := allocate work s
    let d := driveOwners a
    if demandRecords d = demandRecords a then d else settleLoads rounds .recompute d

/-- What the allocator is asked for by an event: a change of the link state or of the own requests is a recomputation
too (R157). -/
def workFor (before : State) (work : Work) (s : State) : Work :=
  if s.view.link ≠ before.view.link ∨ demandRecords s ≠ demandRecords before then .recompute else work

/-! ## What is handed on last -/

/-- E, P, the peak P accumulator and the net flow are formed afresh (R124, R156). -/
def measure (s : State) : State :=
  let e := energisedDraw (loadList s)
  let p := max e s.alloc.measured
  ((s.setAlloc { s.alloc with energised := e, reported := p }).setShift
    { s.shift with peak := if p = s.alloc.reported then s.shift.peak else max s.shift.peak p }).setAir
    { s.air with netFlow := fanFlow s.cfg.air.fan1.flow s.air.fan1 + fanFlow s.cfg.air.fan2.flow s.air.fan2 }

/-- The owners' reports reach the alarm unit's flags (R149). -/
def reportAlarms (s : State) : State :=
  s.setAlarms (updateAlarms s.cfg.alarms.latchedModes (packFlags (alarmCauses s)) s.alarms)

/-- Both summaries are offered to the transmit queue where either changed, and where the link state left SILENT
(R149, R152, R20). -/
def offerSummaries (before s : State) : State :=
  if s.alarms ≠ before.alarms ∨ (before.view.link = .silent ∧ s.view.link ≠ .silent) then
    offer (.alarm s.alarms.active s.alarms.latched) s
  else s

/-- The end of an event that began in state `before` (assumption log 19). A stage whose min-on or min-off time ends at this moment
is switched by it, before the stage's own expiry is taken (DESIGN CHOICE, assumption log 32). -/
def finish (before : State) (work : Work) (s : State) : State :=
  let p := publish before s
  offerSummaries before (reportAlarms (measure (settleLoads (p.heat.stages.length + 2) (workFor before work p) p)))

end Sys2Proof.Machine
end

