-- ==== Sys2Proof/Machine/AirCommands.lean ====
section
/-! DEFINITION. Gas samples and the fans' timers (spec 08). -/

namespace Sys2Proof.Machine

/-- The record of a gas channel. -/
def gasChannelOf (g : Gas) (a : Air) : GasChannel :=
  match g with
  | .co => a.co
  | .no2 => a.no2

/-- Is a sample of the channel scheduled now (R120)? -/
def sampleDue (g : Gas) (s : State) : Bool := s.start.running && decide ((gasChannelOf g s.air).nextSample ≤ s.clock)

/-- One channel takes its sample, and its next one falls 500 ms later (R120). -/
def sampleChannel (c : AirConfig) (limits : GasConfig) (value : Option Nat) (ch : GasChannel) : GasChannel :=
  { takeSample c.assertWindow c.clearWindow limits value ch with nextSample := ch.nextSample + 500 }

/-- A gas sample, and the bay gas class formed afresh (R120, R122). -/
def sampleGas (g : Gas) (value : Option Nat) (s : State) : State :=
  match g with
  | .co => s.setAir (formGasClass { s.air with co := sampleChannel s.cfg.air s.cfg.air.co value s.air.co })
  | .no2 => s.setAir (formGasClass { s.air with no2 := sampleChannel s.cfg.air s.cfg.air.no2 value s.air.no2 })

/-- GAS_SAMPLE (R120). -/
def execGasSample (g : Gas) (value : Option Nat) (s : State) : Answer :=
  .next (if sampleDue g s then finish s .none (sampleGas g value s) else s)

/-- The record of fan 1 (number 0) or fan 2 (number 1). -/
def fanOfNumber (f : Fin 2) (a : Air) : Fan := if f = 0 then a.fan1 else a.fan2

/-- One fan changed by `f`, given its configuration. -/
def onFan (n : Fin 2) (f : FanConfig → Fan → Fan) (s : State) : State :=
  if n = 0 then s.setAir { s.air with fan1 := f s.cfg.air.fan1 s.air.fan1 }
  else s.setAir { s.air with fan2 := f s.cfg.air.fan2 s.air.fan2 }

/-- Has a COASTING fan's coast timer expired (R129)? -/
def coastDue (n : Fin 2) (s : State) : Bool :=
  s.start.running && decide ((fanOfNumber n s.air).state = .coasting) && reached (fanOfNumber n s.air).coastDue s.clock

/-- COAST_TIMER_EXPIRY (R129). A request taken after it at the same instant meets the fan this leaves: where that fan is RUNNING
and the request is for 0 or for the other direction, `driveFan` makes it coast afresh (DESIGN CHOICE, assumption log 31). -/
def execCoastTimerExpiry (n : Fin 2) (s : State) : Answer :=
  .next (if coastDue n s then measure (onFan n (coastExpires s.clock) s) else s)

/-- Has a RUNNING fan's ramp timer expired (R130)? -/
def rampDue (n : Fin 2) (s : State) : Bool :=
  s.start.running && decide ((fanOfNumber n s.air).state = .running) && reached (fanOfNumber n s.air).rampDue s.clock

/-- RAMP_TIMER_EXPIRY (R130). -/
def execRampTimerExpiry (n : Fin 2) (s : State) : Answer :=
  .next (if rampDue n s then measure (onFan n (rampExpires s.clock) s) else s)

end Sys2Proof.Machine
end

