-- ==== Sys2Proof/Machine/Reception.lean ====
section
/-! DEFINITION. An accepted frame: what it does to the line engine, its effect as a valid peer frame, the duplicate
check, and its delivery (R10, R12, R15, R27). -/

namespace Sys2Proof.Machine

/-- A frame can be accepted only by a running station whose engine is in RECEIVE (R10, R24). -/
def mayAccept (s : State) : Bool := s.start.running && decide (s.line.engine = .receive)

/-- The line engine after the six recessive bit times of an accepted frame: HUNT, with the idle count as it stands
since the frame's last dominant bit (R3, R10). -/
def frameEnds (kind : Nat) (sender : Station) (payload : List Byte) (s : State) : State :=
  s.setLine { s.line with
    engine := .hunt, idle := idleAfter 0 (lineBits kind sender payload ++ frameTail), assembler := Assembler.start }

/-- Is the sender a configured bay station other than the own one (R27)? -/
def isPeer (sender : Station) (s : State) : Bool :=
  decide (sender.toNat < 32 ∧ sender.toNat < s.nCfg ∧ sender.toNat ≠ s.own)

/-- Is the sender the lower neighbour (assumption log 17)? -/
def isLower (sender : Station) (s : State) : Bool := decide (sender.toNat + 1 = s.own)

/-- The effect of a valid peer frame on the link state (R27, R33, R35). The end of the ISOLATED condition, number 10
of Table 37, is reported at the moment the link state changes (R38; assumption log 19). -/
def peerFrame (sender : Station) (s : State) : State :=
  if isPeer sender s then
    match s.view.link with
    | .listen => s.setView { s.view with heard := true }
    | .joined => s.setView { s.view with isolationDue := isolationStart s }
    | .isolated =>
      if 2 ≤ s.nCfg then
        let s1 := enterListen s
        (s1.setView { s1.view with heard := true }).setAlarms (endCondition 10 s.alarms)
      else s
    | .silent => s
  else s

/-- The station after the six recessive bit times of an accepted frame, before its delivery (R10, R12, R27). -/
def heard (kind : Nat) (sender : Station) (payload : List Byte) (s : State) : State :=
  peerFrame sender (frameEnds kind sender payload s)

/-- The end of an event that changes no block's state but, perhaps, the link state. -/
def finishLink (before s : State) : State :=
  if s.view.link = before.view.link then s else finish before .none s

/-- An accepted frame (R12): the valid peer frame, the duplicate check, then the delivery and the end of the event. -/
def takeFrame (kind : Nat) (sender : Station) (payload : List Byte) (deliver : State → State)
    (close : State → State → State) (s : State) : State :=
  if mayAccept s then
    let s1 := heard kind sender payload s
    if sender.toNat = s.own then finish s .none (addCause .duplicate s1) else close s (deliver s1)
  else s

/-- A frame that is delivered to no block keeps only its valid peer frame and duplicate effects (R12 to R14). -/
def passFrame (kind : Nat) (sender : Station) (payload : List Byte) (s : State) : State :=
  takeFrame kind sender payload id finishLink s

end Sys2Proof.Machine
end

