-- ==== Sys2Proof/Machine/DirectiveCommands.lean ====
section
/-! DEFINITION. Directives (R13, R140 to R147, R150); RESTART stands in StartCommands.lean. -/

namespace Sys2Proof.Machine

/-- The entry a directive is turned into (R140). -/
def directiveEntry (now : Nat) (sender : Station) (p : Vector Byte 9) (effect : Effect) : OverrideEntry :=
  { source := .directive, origin := some sender, precedence := directivePrecedence p, effect := effect,
    expiry := if directiveDuration p = 0 then none else some (now + directiveDuration p * 1000) }

/-- The entry of a directive is offered to its stack; a directive that names no valid choice is ignored whole (R140). -/
def placeEntry (kind : DirectiveKind) (k : StackId) (sender : Station) (p : Vector Byte 9) (s : State) : State :=
  match directiveEffect kind p with
  | some effect => onStackOf k (offerEntry (directiveEntry s.clock sender p effect)) s
  | none => s

/-- A directive of a kind is delivered if it matches and dropped otherwise (R13); a payload that names another kind is
no such command (assumption log 4). -/
def takeDirective (kind : DirectiveKind) (sender : Station) (p : Vector Byte 9) (deliver : State → State) (s : State) : State :=
  if directiveKind p = some kind then
    if directiveMatches s.cfg.header.group p then
      takeFrame kindDirective sender p.toList deliver (fun b t => finish b .none t) s
    else passFrame kindDirective sender p.toList s
  else s

/-- LIGHT_SET (R141). -/
def execLightSet (sender : Station) (p : Vector Byte 9) (s : State) : Answer :=
  .next (takeDirective .lightSet sender p (placeEntry .lightSet .light sender p) s)

/-- HEAT_HOLD (R142). -/
def execHeatHold (sender : Station) (p : Vector Byte 9) (s : State) : Answer :=
  .next (takeDirective .heatHold sender p (placeEntry .heatHold .heat sender p) s)

/-- HEAT_SETPOINT (R143). -/
def execHeatSetpoint (sender : Station) (p : Vector Byte 9) (s : State) : Answer :=
  .next (takeDirective .heatSetpoint sender p (placeEntry .heatSetpoint .heat sender p) s)

/-- HEAT_BOOST (R144). -/
def execHeatBoost (sender : Station) (p : Vector Byte 9) (s : State) : Answer :=
  .next (takeDirective .heatBoost sender p (placeEntry .heatBoost .heat sender p) s)

/-- VENT_PURGE (R145). -/
def execVentPurge (sender : Station) (p : Vector Byte 9) (s : State) : Answer :=
  .next (takeDirective .ventPurge sender p (placeEntry .ventPurge .vent sender p) s)

/-- VENT_STOP (R146). -/
def execVentStop (sender : Station) (p : Vector Byte 9) (s : State) : Answer :=
  .next (takeDirective .ventStop sender p (placeEntry .ventStop .vent sender p) s)

/-- Does a RELEASE from `sender` remove the entry (R147)? -/
def releases (all : Bool) (sender : Station) (e : OverrideEntry) : Bool :=
  decide (e.source = .directive) && (all || decide (e.origin = some sender))

/-- One stack after a RELEASE (R147). -/
def releaseStack (sender : Station) (p : Vector Byte 9) (k : StackId) (stack : List OverrideEntry) : List OverrideEntry :=
  if releaseNames p k then stack.filter (fun e => !releases (releaseAll p) sender e) else stack

/-- The three stacks after a RELEASE (R147). -/
def releaseEntries (sender : Station) (p : Vector Byte 9) (s : State) : State :=
  s.setOverrides
    { light := releaseStack sender p .light s.overrides.light
      heat := releaseStack sender p .heat s.overrides.heat
      vent := releaseStack sender p .vent s.overrides.vent }

/-- RELEASE (R147). -/
def execRelease (sender : Station) (p : Vector Byte 9) (s : State) : Answer :=
  .next (takeDirective .release sender p (releaseEntries sender p) s)

/-- The alarm unit on an ALARM_ACK (R150). -/
def acknowledgeAlarms (s : State) : State := s.setAlarms (acknowledge s.alarms)

/-- ALARM_ACK (R150). -/
def execAlarmAck (sender : Station) (p : Vector Byte 9) (s : State) : Answer :=
  .next (takeDirective .alarmAck sender p acknowledgeAlarms s)

/-- DIRECTIVE_DROPPED (R13): the directive fails to match, or names an unknown mode or kind. -/
def execDirectiveDropped (sender : Station) (p : Vector Byte 9) (s : State) : Answer :=
  .next (if directiveMatches s.cfg.header.group p ∧ directiveKind p ≠ none then s
    else passFrame kindDirective sender p.toList s)

end Sys2Proof.Machine
end

