-- ==== Sys2Proof/Machine/DoorCommands.lean ====
section
/-! DEFINITION. Door inputs and door timers (spec 06). -/

namespace Sys2Proof.Machine

/-- The record of a configured door, nothing for a door beyond the count (R92). -/
def doorOf (d : Fin 8) (s : State) : Option Door := s.doors.records[d.val]?

/-- Door `d` changed by `f`. -/
def onDoor (d : Fin 8) (f : Door → Door) (s : State) : State :=
  s.setDoors { s.doors with records := updateAt d.val f s.doors.records }

/-- Does a test hold of a configured door's record on a running station? -/
def doorTest (d : Fin 8) (test : Door → Bool) (s : State) : Bool :=
  s.start.running && (match doorOf d s with | some r => test r | none => false)

/-- Can `event` befall the contact of door `d` now (R93)? -/
def contactAdmits (d : Fin 8) (event : InputEvent) (isOpen : Bool) (s : State) : Bool :=
  doorTest d (fun r => r.contact.admits 500 s.clock event isOpen) s

/-- DOOR_CONTACT_CHANGE (R93, R94). A change of the same door's trailer sensor that is due at the same instant is taken in the
same event, after the contact's, so that every block judges the records once, at its end (R95; assumption log 27). -/
def execDoorContactChange (d : Fin 8) (isOpen : Bool) (s : State) (event : InputEvent := .stable) : Answer :=
  .next (if contactAdmits d event isOpen s then
      match event with
      | .raw => onDoor d (fun r => { r with contact := r.contact.sample s.clock isOpen }) s
      | .stable => finish s .none (onDoor d (contactFirst s.clock s.cfg.doors.holdLimit isOpen) s)
    else s)

/-- Can `event` befall the trailer sensor of door `d` now (R93)? -/
def trailerAdmits (d : Fin 8) (event : InputEvent) (isPresent : Bool) (s : State) : Bool :=
  doorTest d (fun r => r.trailer.admits 500 s.clock event isPresent) s

/-- DOOR_TRAILER_CHANGE (R93, R95). A change of the same door's contact that is due at the same instant is taken in the same
event, after the trailer sensor's (R95; assumption log 27). -/
def execDoorTrailerChange (d : Fin 8) (isPresent : Bool) (s : State) (event : InputEvent := .stable) : Answer :=
  .next (if trailerAdmits d event isPresent s then
      match event with
      | .raw => onDoor d (fun r => { r with trailer := r.trailer.sample s.clock isPresent }) s
      | .stable => finish s .none (onDoor d (trailerFirst s.clock s.cfg.doors.holdLimit isPresent) s)
    else s)

/-- Can an input of a settling door have `level` as its first debounced level now (R93)? -/
def firstLevel (now : Nat) (level : Bool) (i : Debounced) : Bool :=
  decide (i.level = some level) || (decide (i.level = none) && i.held 500 now level)

/-- The input with its first debounced level. -/
def takeFirst (level : Bool) (i : Debounced) : Debounced := if i.level = none then i.take level else i

/-- Can settling end now with these two first levels (R93)? -/
def maySettle (now : Nat) (isOpen isPresent : Bool) (r : Door) : Bool :=
  r.settling && firstLevel now isOpen r.contact && firstLevel now isPresent r.trailer

/-- Settling ends: the state is taken from the two first levels (R93). -/
def settlingEnds (now limit : Nat) (isOpen isPresent : Bool) (r : Door) : Door :=
  settleDoor now limit { r with contact := takeFirst isOpen r.contact, trailer := takeFirst isPresent r.trailer }

/-- Has a settling door both first levels now (R93)? -/
def settlingDue (d : Fin 8) (isOpen isPresent : Bool) (s : State) : Bool := doorTest d (maySettle s.clock isOpen isPresent) s

/-- DOOR_SETTLING_ENDS (R93). -/
def execDoorSettlingEnds (d : Fin 8) (isOpen isPresent : Bool) (s : State) : Answer :=
  .next (if settlingDue d isOpen isPresent s then
      finish s .none (onDoor d (settlingEnds s.clock s.cfg.doors.holdLimit isOpen isPresent) s)
    else s)

/-- DOOR_SETTLING_ENDS with the levels that door `d` shows: each input's debounced level, or its raw one while it has
none (R93). -/
def settlingCommand (s : State) (d : Fin 8) : Instr :=
  match doorOf d s with
  | some r => .doorSettlingEnds d (r.contact.level.getD r.contact.raw) (r.trailer.level.getD r.trailer.raw)
  | none => .doorSettlingEnds d false false

/-- The debounced change of the contact of door `d` to its raw level (R93). -/
def contactCommand (s : State) (d : Fin 8) : Instr :=
  .doorContactChange d ((doorOf d s).elim false (fun r => r.contact.raw)) .stable

/-- The debounced change of the trailer sensor of door `d` to its raw level (R93). -/
def trailerCommand (s : State) (d : Fin 8) : Instr :=
  .doorTrailerChange d ((doorOf d s).elim false (fun r => r.trailer.raw)) .stable

/-- Has the hold timer of an OPEN_UNSEALED door reached the hold limit (R96)? -/
def doorHoldDue (d : Fin 8) (s : State) : Bool :=
  doorTest d (fun r => decide (r.state = .openUnsealed) && reached (holdDue s.cfg.doors.holdLimit r) s.clock) s

/-- DOOR_HOLD_EXPIRY (R96). -/
def execDoorHoldExpiry (d : Fin 8) (s : State) : Answer :=
  .next (if doorHoldDue d s then finish s .none (onDoor d holdExpires s) else s)

/-- Has the stable timer of a door in FAULT reached 120 s (R99)? -/
def doorClearDue (d : Fin 8) (s : State) : Bool :=
  doorTest d (fun r => decide (r.state = .fault) && reached (stableDue r) s.clock) s

/-- DOOR_FAULT_CLEAR (R99). -/
def execDoorFaultClear (d : Fin 8) (s : State) : Answer :=
  .next (if doorClearDue d s then finish s .none (onDoor d (clearDoorFault s.clock s.cfg.doors.holdLimit) s) else s)

/-- Has the recovery timer expired (R102)? -/
def boostDue (s : State) : Bool := s.start.running && reached s.doors.recoveryDue s.clock

/-- Boost becomes inactive (R102). -/
def endBoost (s : State) : State := s.setDoors { s.doors with boost := false, recoveryDue := none }

/-- BOOST_RECOVERY_EXPIRY (R102). -/
def execBoostRecoveryExpiry (s : State) : Answer :=
  .next (if boostDue s then finish s .none (endBoost s) else s)

/-- Has a door's open-time remainder reached 1000 ms (R103)? -/
def openSecondsDue (d : Fin 8) (s : State) : Bool := doorTest d (fun r => reached (openSecondDue r) s.clock) s

/-- OPEN_SECONDS_ADVANCE (R103). -/
def execOpenSecondsAdvance (d : Fin 8) (s : State) : Answer :=
  .next (if openSecondsDue d s then onDoor d (advanceOpenSecond s.clock) s else s)

end Sys2Proof.Machine
end

