-- ==== Sys2Proof/Machine/FrameCommands.lean ====
section
/-! DEFINITION. Accepted BEACON, HANDOFF, SHIFT, ALARM and REPLY frames (R28, R66, R48, R30, R12). -/

namespace Sys2Proof.Machine

/-! ## BEACON -/

/-- The sender's entry after an accepted BEACON (R28). -/
def beaconEntry (now : Nat) (p : Vector Byte 24) : PeerEntry :=
  { state := .fresh, heardAt := now, beacon := some (beaconOf p), alarms := some (beaconAlarms p) }

/-- Entry `n` of the view table changed by `f`. -/
def onEntry (n : Nat) (f : PeerEntry → PeerEntry) (s : State) : State :=
  s.setView { s.view with entries := updateAt n f s.view.entries }

/-- A beacon's epoch and page go to the adoption test only from a JOINED sender with epoch-known set and a page up to 3
(R49). -/
def beaconShift (b : BeaconFields) (s : State) : State :=
  if h : b.link = .joined ∧ b.epochKnown ∧ b.page.toNat < 4 then adoptionTest b.epoch ⟨b.page.toNat, h.2.2⟩ s else s

/-- The lower neighbour's gate crossing count and gate status go to the traffic unit (R28, R67). -/
def beaconGate (sender : Station) (b : BeaconFields) (s : State) : State :=
  if isLower sender s then s.setTraffic (lowerBeacon b.gateCount b.gate s.traffic) else s

/-- A BEACON from a configured bay station is taken into its entry, then passed on in the order of R28. -/
def deliverBeacon (sender : Station) (p : Vector Byte 24) (s : State) : State :=
  if isPeer sender s then
    beaconGate sender (beaconOf p) (beaconShift (beaconOf p) (onEntry sender.toNat (fun _ => beaconEntry s.clock p) s))
  else s

/-- The end of a BEACON's event: from a configured bay station it is a recomputation (R157). -/
def closeBeacon (sender : Station) (before s : State) : State :=
  if isPeer sender before then finish before .recompute s else finishLink before s

/-- BEACON_RECEIVED (R28). -/
def execBeaconReceived (sender : Station) (p : Vector Byte 24) (s : State) : Answer :=
  .next (takeFrame kindBeacon sender p.toList (deliverBeacon sender p) (closeBeacon sender) s)

/-! ## HANDOFF -/

/-- Step 1 of R66: the lower neighbour's gate has been crossed. -/
def handoffCount (sender : Station) (h : Handoff) (s : State) : State :=
  if isLower sender s then s.setTraffic (lowerHandoff h s.traffic) else s

/-- Step 2 of R66: the lead-in rule (R73, R77). -/
def handoffLeadIn (sender : Station) (h : Handoff) (s : State) : State :=
  if isWorking s && leadInReach h.speed (distanceAhead s.own sender.toNat h.direction) then
    s.setLighting (leadInTrigger s.clock s.cfg.lighting.leadIn s.lighting)
  else s

/-- A HANDOFF is taken by the traffic unit; one whose direction names neither UP nor DOWN is ignored whole (R66). -/
def deliverHandoff (sender : Station) (p : Vector Byte 4) (s : State) : State :=
  match handoffOf p with
  | some h => handoffLeadIn sender h (handoffCount sender h s)
  | none => s

/-- HANDOFF_RECEIVED (R66). -/
def execHandoffReceived (sender : Station) (p : Vector Byte 4) (s : State) : Answer :=
  .next (takeFrame kindHandoff sender p.toList (deliverHandoff sender p) (fun b t => finish b .none t) s)

/-! ## SHIFT -/

/-- A SHIFT is put to the adoption test, unless its page is above 3 (R48). -/
def deliverShift (p : Vector Byte 2) (s : State) : State :=
  match shiftOf p with
  | some (epoch, page) => adoptionTest epoch page s
  | none => s

/-- SHIFT_RECEIVED (R48). -/
def execShiftReceived (sender : Station) (p : Vector Byte 2) (s : State) : Answer :=
  .next (takeFrame kindShift sender p.toList (deliverShift p) (fun b t => finish b .none t) s)

/-! ## ALARM -/

/-- An ALARM of a configured bay station replaces the alarm active summary of its entry (R30). -/
def deliverAlarm (sender : Station) (p : Vector Byte 4) (s : State) : State :=
  if isPeer sender s then onEntry sender.toNat (fun e => { e with alarms := some (alarmActive p) }) s else s

/-- ALARM_RECEIVED (R30). -/
def execAlarmReceived (sender : Station) (p : Vector Byte 4) (s : State) : Answer :=
  .next (takeFrame kindAlarm sender p.toList (deliverAlarm sender p) (fun b t => finish b .none t) s)

/-! ## REPLY -/

/-- REPLY_RECEIVED: delivered to no block (R12). -/
def execReplyReceived (sender : Station) (p : List Byte) (s : State) : Answer :=
  .next (passFrame kindReply sender p s)

end Sys2Proof.Machine
end

