-- ==== Sys2Proof/Machine/HeatCommands.lean ====
section
/-! DEFINITION. Temperature readings and the stages' minimum times (spec 07). -/

namespace Sys2Proof.Machine

/-- Is a reading scheduled now (R106)? -/
def readingDue (s : State) : Bool := s.start.running && decide (s.heat.nextReading ≤ s.clock)

/-- A reading: the fault test, the limits, the staging and the switching; the publication follows at the end of the event
(R106). -/
def readTemperature (value : Option Int) (s : State) : State :=
  stageReading (s.setHeat { takeReading s.cfg.heat value s.heat with nextReading := s.heat.nextReading + 1000 })

/-- TEMPERATURE_READING (R106). -/
def execTemperatureReading (value : Option Int) (s : State) : Answer :=
  .next (if readingDue s then finish s .none (readTemperature value s) else s)

/-- Does a test hold of a configured stage on a running station? -/
def stageTest (k : Fin 4) (due : StageConfig → Stage → Option Nat) (s : State) : Bool :=
  s.start.running &&
    (match s.cfg.heat.stages[k.val]?, s.heat.stages[k.val]? with
      | some c, some st => reached (due c st) s.clock
      | _, _ => false)

/-- STAGE_MIN_ON_EXPIRY (R116): the demands are formed afresh, and a HOLDING stage is switched off. -/
def execStageMinOnExpiry (k : Fin 4) (s : State) : Answer :=
  .next (if stageTest k minOnDue s then finish s .none s else s)

/-- STAGE_MIN_OFF_EXPIRY (R115): the stages are switched afresh, and a called and granted one is energised. -/
def execStageMinOffExpiry (k : Fin 4) (s : State) : Answer :=
  .next (if stageTest k minOffDue s then finish s .none s else s)

end Sys2Proof.Machine
end

