-- ==== Sys2Proof/Machine/Image.lean ====
section
/-! DEFINITION. Reading the configuration image: the check of R175 and the values of Table 52, each clamped or rounded
as its owning chapter states. -/

namespace Sys2Proof.Machine

/-- Byte `i` of the image. -/
def imageByte (image : List Byte) (i : Nat) : Byte := image.getD i 0

/-- One-byte field at `i`. -/
def image8 (image : List Byte) (i : Nat) : Nat := (imageByte image i).toNat

/-- Two-byte unsigned field at `i`. -/
def image16 (image : List Byte) (i : Nat) : Nat := word16 (imageByte image i) (imageByte image (i + 1))

/-- Two-byte signed field at `i`. -/
def imageSigned (image : List Byte) (i : Nat) : Int := signed16 (imageByte image i) (imageByte image (i + 1))

/-- The sum of bytes 0 to 253 modulo 65536 (R175). -/
def imageSum (image : List Byte) : Nat := ((image.take 254).map BitVec.toNat).sum % 65536

/-- The check of R175, the first failing reason first. -/
def imageOutcome (image : List Byte) : StartOutcome :=
  if image.length < 256 then .noAnswer
  else if imageSum image ≠ image16 image 254 then .sum
  else if imageByte image 0 ≠ 0x21 then .format
  else .good

/-- A page number, above 3 taken as 3 (Tables 10 and 42). -/
def pageNumber (n : Nat) : Fin 4 := ⟨min 3 n, by omega⟩

/-- Image header (Table 42). -/
def headerOf (image : List Byte) : HeaderConfig where
  nCfg := clampNat 1 32 (image8 image 1)
  group := imageByte image 2
  startPage := pageNumber (image8 image 3)
  interval := clampNat 500 5000 (roundDown 100 (image16 image 4))
  cap := max 100 (image16 image 6)

/-- Four levels from byte `i`, above 100 taken as 100 (R43). -/
def levelsAt (image : List Byte) (i : Nat) : List Nat :=
  (List.range 4).map (fun k => min 100 (image8 image (i + k)))

/-- Page `p` at byte 8 + 18 p (R43, Table 52). -/
def pageOf (image : List Byte) (p : Nat) : Page :=
  let at_ := 8 + 18 * p
  { pageClass := if image8 image at_ = 1 then .idle else .working
    work := levelsAt image (at_ + 1)
    standby := levelsAt image (at_ + 5)
    changeoverLevel := min 100 (image8 image (at_ + 9))
    occupied := clampInt (-400) 600 (imageSigned image (at_ + 10))
    unoccupied := clampInt (-400) 600 (imageSigned image (at_ + 12))
    minVent := min 100 (roundDown 5 (image8 image (at_ + 14)))
    changeover := min 1800 (image16 image (at_ + 15))
    next := pageNumber (image8 image (at_ + 17)) }

/-- A mode code; one that names none of the four modes is FOLLOW (R79). -/
def channelModeOf (code : Nat) : ChannelMode :=
  match code with
  | 0 => .offForced
  | 2 => .followInverted
  | 3 => .fullForced
  | _ => .follow

/-- Lighting section (R76, R79, R85). -/
def lightingOf (image : List Byte) : LightingConfig where
  channels := (List.range 4).map fun k =>
    { rated := min 200 (image8 image (80 + 2 * k)), mode := channelModeOf (image8 image (81 + 2 * k)) }
  leadIn := clampNat 5 120 (image8 image 88)
  vacatingHold := clampNat 10 600 (image16 image 89)
  fade := clampNat 1 100 (image8 image 91)

/-- Door section (R92, R88). -/
def doorsOf (image : List Byte) : DoorConfig :=
  let count := min 8 (image8 image 92)
  { holdLimit := min 3600 (image16 image 93)
    recovery := min 600 (image16 image 95)
    curtains := (List.range count).map (fun d => min 500 (image16 image (97 + 2 * d)))
    docks := (List.range count).map (fun d => min 200 (image8 image (113 + d))) }

/-- Hysteresis of Table 23: 0, 5, 10 or 20, anything else taken as 10. -/
def hysteresisOf (n : Nat) : Nat := if n = 0 ∨ n = 5 ∨ n = 20 then n else 10

/-- The two limits placed so that the critical low lies at or below high − h (R105). -/
def placeLimits (low high : Int) (h : Nat) : Int × Int :=
  if low ≤ high - h then (low, high)
  else if high - h < -400 then (-400, -400 + h)
  else (high - h, high)

/-- Temperature and stages sections (R105). -/
def heatOf (image : List Byte) : HeatConfig :=
  let h := hysteresisOf (image8 image 184)
  let limits := placeLimits (clampInt (-400) 600 (imageSigned image 180)) (clampInt (-400) 600 (imageSigned image 182)) h
  { criticalLow := limits.1
    high := limits.2
    hysteresis := h
    boostDelta := min 50 (image8 image 185)
    spacing := clampNat 5 50 (image8 image 186)
    stages := (List.range (min 4 (image8 image 121))).map fun k =>
      { rated := clampNat 1 1000 (image16 image (122 + 6 * k))
        minOn := clampNat 30 600 (image16 image (124 + 6 * k))
        minOff := clampNat 30 900 (image16 image (126 + 6 * k)) } }

/-- A gas channel's thresholds (Table 27). -/
def gasOf (fullScale action critical band : Nat) : GasConfig :=
  let act := clampNat 1 fullScale action
  { fullScale := fullScale, action := act, critical := clampNat act fullScale critical, band := min (act - 1) band }

/-- A response speed: rounded down to a 5 % step, then clamped to 5..100 (Table 27). -/
def responseSpeed (n : Nat) : Nat := clampNat 5 100 (roundDown 5 n)

/-- A fan at byte `i` (R123). -/
def fanOf (image : List Byte) (i : Nat) : FanConfig where
  rated := min 500 (image16 image i)
  flow := min 500 (image16 image (i + 2))
  coast := clampNat 5 120 (image8 image (i + 4))
  ramp := clampNat 100 2000 (image16 image (i + 5))

/-- Gas, fans and balancing sections (R119, R123, R132). -/
def airOf (image : List Byte) : AirConfig where
  co := gasOf 500 (image16 image 167) (image16 image 169) (image16 image 171)
  no2 := gasOf 200 (image8 image 173) (image8 image 174) (image8 image 175)
  assertWindow := clampNat 1 16 (image8 image 176)
  clearWindow := clampNat 1 16 (image8 image 177)
  actionSpeed := responseSpeed (image8 image 178)
  assistSpeed := responseSpeed (image8 image 179)
  fan1 := fanOf image 146
  fan2 := fanOf image 153
  deadband := min 500 (image16 image 187)
  relief := min 200 (image8 image 189)
  stepLimit := clampNat 5 50 (image8 image 190)

/-- Gate section (R58, R69, R70). -/
def gateOf (image : List Byte) : GateConfig where
  present := decide (image8 image 160 ≠ 0)
  spacing := clampNat 200 2000 (image16 image 161)
  zoneHold := clampNat 5 300 (image16 image 163)
  vacancy := clampNat 30 1800 (image16 image 165)

/-- Meter section (R169). -/
def meterOf (image : List Byte) : MeterConfig where
  weight := clampNat 1 1000 (image16 image 191)
  creep := clampNat 10 600 (image16 image 193)
  margin := min 500 (image16 image 195)

/-- Alarm section (R149, R151). -/
def alarmsOf (image : List Byte) : AlarmConfig where
  latchedModes := half (imageByte image 197) (imageByte image 198)
  annunciate := half (imageByte image 199) (imageByte image 200)
  assertedHigh := decide (image8 image 201 ≠ 0)

/-- All values of a GOOD image (Table 52). -/
def configOf (image : List Byte) : Config where
  header := headerOf image
  pages := (List.range 4).map (pageOf image)
  lighting := lightingOf image
  doors := doorsOf image
  heat := heatOf image
  air := airOf image
  gate := gateOf image
  meter := meterOf image
  alarms := alarmsOf image

/-- The configuration a start sequence ends with: the image's on a GOOD check, the built-in defaults otherwise
(R174 step 5, R176). -/
def configFor (image : List Byte) : Config :=
  if imageOutcome image = .good then configOf image else Config.builtIn

/-- The start outcome: STRAP_RANGE where the image is GOOD and the strapped number is at or above N_cfg (R175). -/
def startOutcome (image : List Byte) (strapped : Nat) : StartOutcome :=
  if imageOutcome image = .good ∧ (configOf image).header.nCfg ≤ strapped then .strapRange else imageOutcome image

end Sys2Proof.Machine
end

