-- ==== Sys2Proof/Machine/StartCommands.lean ====
section
/-! DEFINITION. Power-on reset, the end of a start sequence, and a restart (R174 to R177). -/

namespace Sys2Proof.Machine

/-! ## POWER_ON_RESET -/

/-- The station right after power-up: everything is lost but the model's queue and clock (assumption log 23). -/
def powerOn (s : State) : State := (State.reset.setPending s.pending).setClock s.clock

/-- POWER_ON_RESET (R174). -/
def execPowerOnReset (s : State) : Answer := .next (powerOn s)

/-! ## START_SEQUENCE_END -/

/-- Is a start outcome a DEFAULTED one (R175)? -/
def isDefaulted (o : StartOutcome) : Bool := o = .noAnswer || o = .sum || o = .format

/-- The start block at the end of the sequence (R174 steps 2 to 5). -/
def startedBlock (r : StartReading) (s : State) : Start :=
  { running := true, strapped := r.straps.toNat, outcome := startOutcome r.image r.straps.toNat, cause := s.start.cause,
    config := configFor r.image, endedAt := s.clock }

/-- The silent causes found: TIMEBASE as it stands, DUPLICATE gone (R36, R41, R174). -/
def startedCauses (s : State) : SilentCauses :=
  { duplicate := false, timebase := s.view.timebaseLost, defaulted := isDefaulted s.start.outcome,
    strapRange := s.start.outcome = .strapRange }

/-- The view table: every entry ABSENT, the own one SELF where it lies below N_cfg (R25, R41). -/
def startedEntries (s : State) : List PeerEntry :=
  (List.range 32).map fun n => if n = s.own ∧ n < s.nCfg then { PeerEntry.empty with state := .self } else PeerEntry.empty

/-- The peer view before its link state takes its first value (R31, R41). -/
def startedView (s : State) : View :=
  { View.initial with
    entries := startedEntries s, causes := startedCauses s, nextBeacon := s.clock + s.cfg.header.interval + 25 * s.own,
    timebaseLost := s.view.timebaseLost, timebaseMark := s.view.timebaseMark }

/-- The first value of the link state (R36, R174 step 6). -/
def firstLink (s : State) : State := if s.view.causes.isEmpty then enterListen s else s

/-- The line engine: HUNT, or HELD while the timebase is lost (R24). -/
def startedLine (s : State) : Line :=
  { Line.initial with engine := if s.view.timebaseLost then .held else .hunt }

/-- The shift tracker: the start page only after a power-on reset; the SHIFT input's first raw sample (R56, R45). -/
def startedShift (r : StartReading) (s : State) : Shift :=
  { s.shift with
    page := if s.start.cause = .powerOn then s.cfg.header.startPage else s.shift.page, phase := .steady, changeoverDue := none,
    lockoutDue := none, input := Debounced.unknown s.clock r.shift }

/-- The traffic unit with its first samples (R58, R59, R69, R75). -/
def startedTraffic (r : StartReading) (s : State) : Traffic :=
  beginTracking { Traffic.initial with
    gate := if s.cfg.gate.present then .ok else .none
    beamA := s.cfg.gate.present && r.beamA
    beamB := s.cfg.gate.present && r.beamB
    zones := r.presence.toList.map fun a => { asserted := a, releasedAt := none } }

/-- The lighting unit; the MANUAL level found is taken as the first debounced one (R91, assumption log 10). -/
def startedLighting (r : StartReading) (s : State) : Lighting :=
  { Lighting.initial with
    docks := List.replicate s.cfg.doorCount DockLight.off, manual := (Debounced.unknown s.clock r.manual).take r.manual }

/-- The door unit: one settling record per configured door, with its inputs' first raw samples and the accumulators kept
(R93, R104). -/
def startedDoors (r : StartReading) (s : State) : Doors :=
  { Doors.initial with
    records := (List.range s.cfg.doorCount).map fun d =>
      freshDoor s.clock (r.contacts.toList.getD d false) (r.trailers.toList.getD d false) s.doors.records[d]? }

/-- The heat unit with its first reading (R106, R118). -/
def startedHeat (r : StartReading) (s : State) : Heat :=
  takeReading s.cfg.heat r.temperature
    { Heat.initial with
      stages := List.replicate s.cfg.heat.stages.length (freshStage s.clock), nextReading := s.clock + 1000 }

/-- A gas channel with its first sample (R120, R136). -/
def startedGas (s : State) (c : GasConfig) (sample : Option Nat) : GasChannel :=
  { takeSample s.cfg.air.assertWindow s.cfg.air.clearWindow c sample GasChannel.fresh with nextSample := s.clock + 500 }

/-- The air unit with its first samples, both fans coasting (R136). -/
def startedAir (r : StartReading) (s : State) : Air :=
  formGasClass { Air.initial with
    co := startedGas s s.cfg.air.co r.co, no2 := startedGas s s.cfg.air.no2 r.no2
    fan1 := freshFan s.clock s.cfg.air.fan1, fan2 := freshFan s.clock s.cfg.air.fan2 }

/-- The MANUAL entry (R90). -/
def manualEntry : OverrideEntry :=
  { source := .manual, origin := none, precedence := 7, effect := .level 100 0xF, expiry := none }

/-- The override stacks: the MANUAL entry where the input is asserted (R153). -/
def startedOverrides (r : StartReading) : Overrides :=
  { Overrides.initial with light := if r.manual then [manualEntry] else [] }

/-- The allocator: the pulse stamps are kept (R173). -/
def startedAlloc (s : State) : Alloc :=
  { Alloc.initial with newest := s.alloc.newest, previous := s.alloc.previous, nextCheck := s.clock + 1000 }

/-- The blocks with their starting values, before the first demand records (R174 step 6); the setpoint, the calls and the
stages' demands are formed with the bay VACANT (R118). -/
def startedBlocks (r : StartReading) (s : State) : State :=
  let s1 := s.setStart (startedBlock r s)
  let s2 := s1.setView (startedView s1)
  reformHeat (firstLink { s2 with
    line := startedLine s2, shift := startedShift r s2, traffic := startedTraffic r s2, lighting := startedLighting r s2
    doors := startedDoors r s2, heat := startedHeat r s2, air := startedAir r s2, overrides := startedOverrides r
    alarms := Alarms.initial, alloc := startedAlloc s2 })

/-- The end of a start sequence (R174 step 6): the first value of the link state is no change of it. -/
def endStart (r : StartReading) (s : State) : State :=
  finish (startedBlocks r s) .recompute (startedBlocks r s)

/-- START_SEQUENCE_END (R174). -/
def execStartSequenceEnd (r : StartReading) (s : State) : Answer :=
  .next (if s.start.running then s else endStart r s)

/-! ## RESTART -/

/-- The shift tracker at a restart (R56); its input is not sampled until the sequence ends (R45). -/
def restartShift (b : Shift) : Shift :=
  { b with phase := .steady, changeoverDue := none, lockoutDue := none, input := Debounced.unsampled }

/-- The doors at a restart: only the accumulators are kept (R104). -/
def restartDoors (now : Nat) (b : Doors) : Doors :=
  { Doors.initial with records := b.records.map fun d => freshDoor 0 false false (some (gatherOpen now d)) }

/-- A restart begins a start sequence; what Table 44 names is kept (R177). -/
def beginRestart (s : State) : State :=
  { State.reset with
    pending := s.pending
    clock := s.clock
    start := { s.start with running := false, cause := .restart }
    view := { View.initial with
      causes := { View.initial.causes with timebase := s.view.causes.timebase }
      timebaseLost := s.view.timebaseLost
      timebaseMark := s.view.timebaseMark }
    shift := restartShift s.shift
    doors := restartDoors s.clock s.doors
    alloc := { Alloc.initial with newest := s.alloc.newest, previous := s.alloc.previous } }

/-- RESTART (R148, R177): a matched directive is delivered to the start block at the moment of acceptance; one that does
not match is dropped (R13), and a payload that names another kind is no such command (assumption log 4). -/
def execRestart (sender : Station) (p : Vector Byte 9) (s : State) : Answer :=
  .next (if directiveKind p = some .restart then
      if directiveMatches s.cfg.header.group p then
        takeFrame kindDirective sender p.toList beginRestart (fun _ t => t) s
      else passFrame kindDirective sender p.toList s
    else s)

end Sys2Proof.Machine
end

