-- ==== Sys2Proof/Machine/TrafficCommands.lean ====
section
/-! DEFINITION. Beams, presence inputs and the traffic unit's timers (spec 04). -/

namespace Sys2Proof.Machine

/-- Does the traffic unit sample beams: the station runs and a gate is configured (R58)? -/
def gateSampled (s : State) : Bool := s.start.running && decide (s.traffic.gate ≠ .none)

/-! ## GATE_BEAM_CHANGE -/

/-- The held pair with one beam changed. -/
def toggleBeam (beam : Beam) (t : Traffic) : Traffic :=
  match beam with
  | .a => { t with beamA := !t.beamA }
  | .b => { t with beamB := !t.beamB }

/-- The HANDOFF of a crossing (R61, R65): transit time 0 when the speed class is UNKNOWN. -/
def handoffFor (spacing : Nat) (dir : Travel) (count : Byte) (t : Traffic) : Handoff :=
  { direction := dir, speed := speedClassOf spacing (transitTime t), count := count, transit := (transitTime t).getD 0 }

/-- The change of the own count at a crossing of the own gate (R64). -/
def crossingChange (dir : Travel) : Int :=
  match dir with
  | .up => -1
  | .down => 1

/-- A crossing at the own gate (R64): the counts advance, a HANDOFF is offered, then the occupancy count changes. -/
def takeCrossing (dir : Travel) (s : State) : State :=
  let h := handoffFor s.cfg.gate.spacing dir (s.traffic.gateCount + 1) s.traffic
  let s1 := (s.setTraffic { s.traffic with gateCount := s.traffic.gateCount + 1 }).setShift
    { s.shift with crossings := min 65535 (s.shift.crossings + 1) }
  let s2 := offer (.handoff h) s1
  s2.setTraffic (changeCount (crossingChange dir) s2.traffic)

/-- A passage is over: a crossing or a back-out; the position returns to 0 and the stamps become absent (R59). -/
def endPassage (s : State) : State :=
  let s1 := match crossingOf s.traffic.position with
    | some dir => takeCrossing dir s
    | none => s
  s1.setTraffic (clearPassage s1.traffic)

/-- A single-beam change at a gate that is OK (R59); in FAULT it moves nothing (R63). -/
def beamChange (beam : Beam) (s : State) : State :=
  let t := toggleBeam beam s.traffic
  if t.gate = .ok then
    if t.tracking then
      let step := gateStep s.traffic.beamA s.traffic.beamB t.beamA t.beamB
      let s1 := s.setTraffic (decoderStep s.clock step t)
      if t.beamA = false ∧ t.beamB = false then endPassage s1 else s1
    else s.setTraffic (beginTracking t)
  else s.setTraffic t

/-- GATE_BEAM_CHANGE (R59). -/
def execGateBeamChange (beam : Beam) (s : State) : Answer :=
  .next (if gateSampled s then finish s .none (beamChange beam s) else s)

/-! ## INVALID_TRANSITION, GATE_FAULT_CLEAR -/

/-- An invalid transition: both beams have changed (R62); in FAULT the quiet time starts again (R63). -/
def invalidTransition (now : Nat) (t : Traffic) : Traffic :=
  let t1 := { t with beamA := !t.beamA, beamB := !t.beamB }
  if t.gate = .fault then { t1 with quietSince := some now } else invalidWhileOk now t1

/-- INVALID_TRANSITION (R62). -/
def execInvalidTransition (s : State) : Answer :=
  .next (if gateSampled s then finish s .none (s.setTraffic (invalidTransition s.clock s.traffic)) else s)

/-- Has the fault quiet time reached 600 s (R63)? -/
def gateClearDue (s : State) : Bool :=
  s.start.running && decide (s.traffic.gate = .fault) && reached (s.traffic.quietSince.map (fun t => t + 600000)) s.clock

/-- GATE_FAULT_CLEAR (R63). -/
def execGateFaultClear (s : State) : Answer :=
  .next (if gateClearDue s then finish s .none (s.setTraffic (clearGateFault s.traffic)) else s)

/-! ## Presence -/

/-- Zone `z` of the traffic unit. -/
def zoneOf (z : Fin 4) (s : State) : Zone := s.traffic.zones.getD z.val { asserted := false, releasedAt := none }

/-- Zone `z` changed by `f`. -/
def onZone (z : Fin 4) (f : Zone → Zone) (s : State) : State :=
  s.setTraffic { s.traffic with zones := updateAt z.val f s.traffic.zones }

/-- PRESENCE_ASSERTED (R69): the zone is active and its timer stops. -/
def execPresenceAsserted (z : Fin 4) (s : State) : Answer :=
  .next (if s.start.running ∧ (zoneOf z s).asserted = false then
      finish s .none (onZone z (fun _ => { asserted := true, releasedAt := none }) s)
    else s)

/-- PRESENCE_RELEASED (R69): the zone timer starts from 0; the zone stays active. -/
def execPresenceReleased (z : Fin 4) (s : State) : Answer :=
  .next (if s.start.running ∧ (zoneOf z s).asserted then
      onZone z (fun _ => { asserted := false, releasedAt := some s.clock }) s
    else s)

/-- Has the zone timer reached the zone hold (R69)? -/
def zoneDue (z : Fin 4) (s : State) : Bool :=
  s.start.running && reached ((zoneOf z s).releasedAt.map (fun t => t + s.cfg.gate.zoneHold * 1000)) s.clock

/-- ZONE_HOLD_EXPIRY (R69). -/
def execZoneHoldExpiry (z : Fin 4) (s : State) : Answer :=
  .next (if zoneDue z s then finish s .none (onZone z (fun x => { x with releasedAt := none }) s) else s)

/-- Has the vacancy timer reached its limit (R70)? -/
def vacancyDue (s : State) : Bool := s.start.running && vacancyReached s.cfg.gate.vacancy s.clock s.traffic

/-- VACANCY_CORRECTION (R70). -/
def execVacancyCorrection (s : State) : Answer :=
  .next (if vacancyDue s then finish s .none (s.setTraffic (correctVacancy s.traffic)) else s)

end Sys2Proof.Machine
end

