-- ==== Sys2Proof/Machine/LightingCommands.lean ====
section
/-! DEFINITION. The lighting unit's timers, the fade and the MANUAL input (spec 05). -/

namespace Sys2Proof.Machine

/-- Would a queued command, taken at this instant, stop the lead-in and vacating timers or start the lead-in again: a HANDOFF
with a lead-in trigger, or a change that makes the bay occupied (R73, R76, R77)? -/
def movesBay (s : State) (c : Instr) : Bool :=
  match c with
  | .handoffReceived sender p =>
    mayAccept s && decide (sender.toNat ≠ s.own) &&
      (decide ((deliverHandoff sender p s).lighting ≠ s.lighting) || occupied (deliverHandoff sender p s).traffic)
  | .presenceAsserted z => s.start.running && !(zoneOf z s).asserted
  | .gateBeamChange beam => gateSampled s && occupied (beamChange beam s).traffic
  | _ => false

/-- Does such a command wait at this instant? It is taken before an expiry of the lead-in or vacating timer, which then does
not happen: the event that holds both reports the final bay lighting state only (R78, assumption log 30). -/
def bayMoveWaits (s : State) : Bool := s.pending.any (movesBay s)

/-- Has the lead-in timer expired (R77)? -/
def leadInDue (s : State) : Bool := s.start.running && reached s.lighting.leadInDue s.clock

/-- LEAD_IN_TIMER_EXPIRY (R77, R78). -/
def execLeadInTimerExpiry (s : State) : Answer :=
  .next (if leadInDue s && !bayMoveWaits s then finish s .none (s.setLighting (vacate s.lighting)) else s)

/-- Has the vacating timer expired (R76)? -/
def vacatingDue (s : State) : Bool := s.start.running && reached s.lighting.vacatingDue s.clock

/-- VACATING_TIMER_EXPIRY (R76, R78). -/
def execVacatingTimerExpiry (s : State) : Answer :=
  .next (if vacatingDue s && !bayMoveWaits s then finish s .none (s.setLighting (vacate s.lighting)) else s)

/-- Channel `i` of the lighting unit. -/
def channelOf (i : Fin 4) (s : State) : Channel := s.lighting.channels.getD i.val Channel.dark

/-- Has the channel's rise reached its next whole percent (R85)? -/
def riseStepDue (i : Fin 4) (s : State) : Bool :=
  s.start.running && reached (riseDue s.cfg.lighting.fade (channelOf i s)) s.clock

/-- The channel's rise takes the level it has reached (R85). -/
def stepRise (i : Fin 4) (s : State) : State :=
  s.setLighting { s.lighting with
    channels := updateAt i.val (advanceRise s.clock s.cfg.lighting.fade) s.lighting.channels }

/-- LEVEL_RISE_STEP (R85, R87). -/
def execLevelRiseStep (i : Fin 4) (s : State) : Answer :=
  .next (if riseStepDue i s then measure (stepRise i s) else s)

/-- The MANUAL input's record changed by `f`. -/
def onManual (f : Debounced → Debounced) (s : State) : State :=
  s.setLighting { s.lighting with manual := f s.lighting.manual }

/-- Can `event` befall the MANUAL input now (R90)? -/
def manualAdmits (event : InputEvent) (asserted : Bool) (s : State) : Bool :=
  s.start.running && s.lighting.manual.admits 50 s.clock event asserted

/-- MANUAL_ASSERTED (R90): the raw level changes to asserted, or it has been so for the stable time and a MANUAL entry is
offered to the LIGHT stack. -/
def execManualAsserted (s : State) (event : InputEvent := .stable) : Answer :=
  .next (if manualAdmits event true s then
      match event with
      | .raw => onManual (Debounced.sample s.clock true) s
      | .stable => finish s .none (onStackOf .light (offerEntry manualEntry) (onManual (Debounced.take true) s))
    else s)

/-- MANUAL_RELEASED (R90): the raw level changes to released, or it has been so for the stable time and the MANUAL entry is
removed from the LIGHT stack. -/
def execManualReleased (s : State) (event : InputEvent := .stable) : Answer :=
  .next (if manualAdmits event false s then
      match event with
      | .raw => onManual (Debounced.sample s.clock false) s
      | .stable => finish s .none (onStackOf .light (withoutIdentity .manual none) (onManual (Debounced.take false) s))
    else s)

end Sys2Proof.Machine
end

