-- ==== Sys2Proof/Machine/Replies.lean ====
section
/-! DEFINITION. The own beacon's fields and the bodies of the replies (R32, R179, R180, Tables 50 and 51). -/

namespace Sys2Proof.Machine

/-- The fields of an own BEACON taken now (Table 8). -/
def ownBeacon (s : State) : BeaconFields where
  sequence := s.view.sequence
  interval := s.cfg.header.interval
  link := s.view.link
  epochKnown := s.shift.epoch.isSome
  phase := s.shift.phase
  page := BitVec.ofNat 4 s.shift.page.val
  epoch := s.shift.epoch.getD 0
  occupancy := s.traffic.count
  uncertain := s.traffic.uncertain
  available := s.air.available
  gate := s.traffic.gate
  gas := s.air.gasClass
  bay := s.lighting.bay
  gateCount := s.traffic.gateCount
  temperature := s.heat.last
  netFlow := s.air.netFlow
  openUnsealed := s.doors.openUnsealed
  draw := s.alloc.reported
  requests := s.alloc.requests

/-- The payload of an own BEACON taken now (R32, Table 48). -/
def ownBeaconBytes (s : State) : List Byte := beaconBytes (ownBeacon s) s.alarms.active

/-! ## Codes of Tables 50 and 51 -/

/-- Start outcome code. -/
def outcomeCode : StartOutcome → Nat
  | .good => 0
  | .noAnswer => 1
  | .sum => 2
  | .format => 3
  | .strapRange => 4

/-- Entry state code. -/
def entryCode : EntryState → Nat
  | .absent => 0
  | .fresh => 1
  | .stale => 2
  | .lost => 3
  | .self => 4

/-- Door state code. -/
def doorCode : DoorState → Nat
  | .closed => 0
  | .openSealed => 1
  | .openUnsealed => 2
  | .held => 3
  | .fault => 4

/-- Code of a debounced input: 0, 1, or 3 for absent. -/
def levelCode (level : Option Bool) : Nat :=
  match level with
  | some b => b.toNat
  | none => 3

/-- Override source kind code. -/
def sourceKindCode : SourceKind → Nat
  | .changeover => 0
  | .directive => 1
  | .manual => 2

/-- Air direction code. -/
def airDirCode : AirDir → Nat
  | .supply => 0
  | .exhaust => 1

/-- Effect code and its three parameter bytes. -/
def effectBytes : Effect → List Byte
  | .level percent channels => [0, byteOf percent, byteOf channels.toNat, 0]
  | .setpoint t => [1] ++ signedBytes t ++ [0]
  | .boost delta => [2, byteOf delta, 0, 0]
  | .hold => [3, 0, 0, 0]
  | .purge dir speed => [4, byteOf (airDirCode dir), byteOf speed, 0]
  | .stop => [5, 0, 0, 0]

/-- Setpoint source code. -/
def setpointCode : SetpointSource → Nat
  | .occupied => 0
  | .unoccupied => 1
  | .override => 2

/-- Fan ruling source code (Table 31). -/
def fanSourceCode : FanSource → Nat
  | .none => 0
  | .critical => 1
  | .action => 2
  | .vent => 3
  | .assist => 4
  | .minimum => 5
  | .balancing => 6

/-- Fan state code. -/
def fanStateCode : FanState → Nat
  | .stopped => 0
  | .running => 1
  | .coasting => 2

/-- Fan direction code: 2 for UNKNOWN. -/
def fanDirCode (dir : Option AirDir) : Nat :=
  match dir with
  | some d => airDirCode d
  | none => 2

/-- Stage demand code. -/
def stageDemandCode : StageDemand → Nat
  | .none => 0
  | .called => 1
  | .holding => 2

/-! ## STATUS, PEER, SHIFT -/

/-- The set of silent causes in bits 5 to 2. -/
def causeBits (c : SilentCauses) : Nat :=
  weight c.duplicate 32 + weight c.timebase 16 + weight c.defaulted 8 + weight c.strapRange 4

/-- The STATUS body (R179). -/
def statusBody (s : State) : List Byte :=
  [byteOf (weight (s.start.cause = .restart) 128 + outcomeCode s.start.outcome), byteOf s.own, byteOf s.nCfg,
    byteOf (linkCode s.view.link * 64 + causeBits s.view.causes + weight s.view.timebaseLost 1),
    s.shift.epoch.getD 0, byteOf (shiftByte s.shift.epoch.isSome s.shift.phase s.shift.page.val), byteOf s.traffic.count,
    byteOf (baySummaryByte s.traffic.uncertain false s.traffic.gate s.air.gasClass s.lighting.bay)]
    ++ temperatureBytes s.heat.last ++ halfBytes s.alarms.active ++ halfBytes s.alarms.latched

/-- The body of an entry that is not the own one (Table 50; the fields as taken, assumption log 13). -/
def entryBody (now : Nat) (e : PeerEntry) : List Byte :=
  match e.beacon with
  | some b =>
    [byteOf (weight e.alarms.isSome 128 + entryCode e.state)] ++ bytes16 (min 65535 (now - e.heardAt))
      ++ beaconBytes b (e.alarms.getD 0)
  | none =>
    [byteOf (weight e.alarms.isSome 128 + entryCode e.state)] ++ (e.alarms.map halfBytes).getD []

/-- The PEER body of index `n` (R179). -/
def peerBody (n : Nat) (s : State) : List Byte :=
  if s.nCfg ≤ n then [0]
  else if n = s.own then [byteOf (128 + entryCode .self), 0, 0] ++ ownBeaconBytes s
  else entryBody s.clock (s.view.entries.getD n PeerEntry.empty)

/-- The SHIFT body of index 0 (R179). -/
def shiftBody (s : State) : List Byte :=
  bytes32 s.shift.energy ++ bytes16 s.shift.peak ++ bytes16 s.shift.crossings ++
    match s.shift.summary with
    | some m => [1, m.epoch] ++ bytes32 m.energy ++ bytes16 m.peak ++ bytes16 m.crossings
    | none => [0]

/-- The SHIFT body of a door (R179); a door that the summary does not hold is reported as absent (assumption log 14). -/
def shiftDoorBody (d : Door) (past : Option (Nat × Nat)) : List Byte :=
  bytes16 d.cycles ++ bytes32 d.openSeconds ++
    match past with
    | some (cycles, seconds) => [1] ++ bytes16 cycles ++ bytes32 seconds
    | none => [0]

/-! ## DOOR, OVERRIDES, LOADS -/

/-- The DOOR body (R180), seconds rounded toward zero (assumption log 15). -/
def doorBody (now : Nat) (d : Door) (dock : DockLight) : List Byte :=
  [byteOf (weight d.settling 128 + doorCode d.state), byteOf (levelCode d.contact.level * 64 + levelCode d.trailer.level * 16)]
    ++ ((d.openSince.map fun t => bytes32 (secondsOf (now - t))).getD [0xFF, 0xFF, 0xFF, 0xFF])
    ++ ((d.holdSince.map fun t => bytes16 (secondsOf (now - t))).getD [0xFF, 0xFF])
    ++ [byteOf d.chatter.length, (d.stableSince.map fun t => byteOf (secondsOf (now - t))).getD 0xFF,
        byteOf (weight d.curtainDemanded 128 + weight d.curtainGranted 64 + weight d.curtainOn 32 + weight dock.output 16)]
    ++ bytes16 d.cycles ++ bytes32 d.openSeconds

/-- An entry of the OVERRIDES body (Table 51). -/
def overrideBytes (now : Nat) (e : OverrideEntry) : List Byte :=
  [byteOf (sourceKindCode e.source), (e.origin.map fun o => byteOf o.toNat).getD 0xFF, byteOf e.precedence]
    ++ effectBytes e.effect ++ ((e.expiry.map fun t => bytes24 (secondsOf (t - now))).getD [0xFF, 0xFF, 0xFF])

/-- The OVERRIDES body of a stack (R180). -/
def overridesBody (now : Nat) (stack : List OverrideEntry) : List Byte :=
  [byteOf stack.length] ++ stack.flatMap (overrideBytes now)

/-- The grants of three tiers. -/
def grantBytes (g : Grants) : List Byte := bytes16 g.g1 ++ bytes16 g.g2 ++ bytes16 g.g3

/-- The LOADS body of index 0 (R180). -/
def loadsBody (s : State) : List Byte :=
  grantBytes s.alloc.computed ++ grantBytes s.alloc.applied ++ [byteOf s.alloc.pendingDue.isSome.toNat]
    ++ bytes16 s.alloc.requests.q0 ++ bytes16 s.alloc.requests.q1 ++ bytes16 s.alloc.requests.q2 ++ bytes16 s.alloc.requests.q3
    ++ bytes16 s.alloc.energised ++ bytes16 s.alloc.reported ++ bytes16 s.alloc.measured ++ bytes16 s.alloc.term
    ++ signedBytes s.heat.setpoint ++ [byteOf (setpointCode s.heat.source)] ++ signedBytes s.heat.effective

/-- The body of a place of the load list: load kind, then the place, then bytes 5 and 6 (assumption log 14). -/
def placeBody (kind : Nat) (l : Load) (b5 b6 : Nat) : List Byte :=
  [byteOf kind, byteOf (match l.demand with | some d => 128 + d.tier.val | none => 0),
    byteOf ((l.demand.map Demand.setting).getD 0), byteOf l.granted, byteOf l.present, byteOf b5, byteOf b6]

/-- Byte 6 of a fan's place. -/
def fanByte (f : Fan) : Nat :=
  weight (f.requested = .exhaust) 128 + fanStateCode f.state * 16 + fanDirCode f.direction * 4

/-- The bodies of all places, in the order of the load list (Table 38). -/
def placeBodies (s : State) : List (List Byte) :=
  List.zipWith (fun (c : ChannelConfig) (ch : Channel) => placeBody 0 (channelLoad c ch) 0 0)
      s.cfg.lighting.channels s.lighting.channels
    ++ List.zipWith (fun r d => placeBody 1 (dockLoad r d) 0 0) s.cfg.doors.docks s.lighting.docks
    ++ [placeBody 2 (fanLoad s.cfg.air.fan1 s.air.fan1) (fanSourceCode s.air.fan1.source) (fanByte s.air.fan1),
        placeBody 2 (fanLoad s.cfg.air.fan2 s.air.fan2) (fanSourceCode s.air.fan2.source) (fanByte s.air.fan2)]
    ++ List.zipWith (fun r d => placeBody 3 (curtainLoad r d) 0 0) s.cfg.doors.curtains s.doors.records
    ++ List.zipWith (fun c st => placeBody 4 (stageLoad c st) (stageDemandCode st.demand) 0) s.cfg.heat.stages s.heat.stages

/-! ## The answer to a query -/

/-- The stack an OVERRIDES index names (Table 45). -/
def stackOfIndex (o : Overrides) (i : Nat) : Option (List OverrideEntry) :=
  match i with
  | 0 => some o.light
  | 1 => some o.heat
  | 2 => some o.vent
  | _ => none

/-- The body a record kind and index name, or nothing where Table 45 has no such record. -/
def recordBody (kind index : Nat) (s : State) : Option (List Byte) :=
  match kind with
  | 0 => if index = 0 then some (statusBody s) else none
  | 1 => if index < 32 then some (peerBody index s) else none
  | 2 =>
    if index = 0 then some (shiftBody s)
    else (s.doors.records[index - 1]?).map fun d => shiftDoorBody d (s.shift.summary.bind fun m => m.doors[index - 1]?)
  | 3 =>
    if index = 0 then none
    else (s.doors.records[index - 1]?).map fun d => doorBody s.clock d (s.lighting.docks.getD (index - 1) DockLight.off)
  | 4 => (stackOfIndex s.overrides index).map (overridesBody s.clock)
  | 5 => if index = 0 then some (loadsBody s) else (placeBodies s)[index - 1]?
  | _ => none

/-- The REPLY to a query: status OK with the record, or NO_SUCH_RECORD with an empty body (R178). -/
def answerTo (requester : Station) (p : Vector Byte 3) (s : State) : Bulletin :=
  match recordBody p[1].toNat p[2].toNat s with
  | some body => .reply requester p[1] p[2] true body
  | none => .reply requester p[1] p[2] false []

end Sys2Proof.Machine
end

