-- ==== Sys2Proof/Machine/LineCommands.lean ====
section
/-! DEFINITION. The commands of the line engine (spec 01). A command whose event cannot occur in the state changes
nothing (assumption log 2). -/

namespace Sys2Proof.Machine

/-- The own station number as a frame header carries it. -/
def ownStation (s : State) : Station := BitVec.ofNat 6 s.own

/-! ## LINE_IDLE, START_DELIMITER -/

/-- The idle count has followed the line to `count` in HUNT, which ends where it reaches 12 (R3). -/
def huntLine (count : Nat) (l : Line) : Line := { l with engine := if count = 12 then .idle else .hunt, idle := count }

/-- LINE_IDLE (R3): the idle count follows the line levels read in HUNT, and the engine enters IDLE when it reaches 12. -/
def execLineIdle (s : State) (bits : List Bool := twelveRecessive) : Answer :=
  .next (if s.start.running ∧ s.line.engine = .hunt then
      match huntBits s.line.idle bits with
      | some count => s.setLine (huntLine count s.line)
      | none => s
    else s)

/-- Another unit's start delimiter: RECEIVE with an empty assembler (R3). -/
def startDelimiter (l : Line) : Line := { l with engine := .receive, idle := 0, assembler := Assembler.start }

/-- START_DELIMITER (R3, R5). -/
def execStartDelimiter (s : State) : Answer :=
  .next (if s.start.running ∧ s.line.engine = .idle then s.setLine (startDelimiter s.line) else s)

/-! ## TRANSMIT_ATTEMPT_START -/

/-- The payload of a slot at its attempt start: a BEACON's is supplied now (R5, R32). -/
def payloadNow (s : State) (b : Bulletin) : List Byte :=
  match b with
  | .beacon => ownBeaconBytes s
  | .alarm active latched => bulletinBytes (.alarm active latched)
  | .handoff h => bulletinBytes (.handoff h)
  | .shift epoch page => bulletinBytes (.shift epoch page)
  | .reply requester kind index ok body => bulletinBytes (.reply requester kind index ok body)

/-- The chosen slot is marked in flight and the start delimiter is driven: SEND (R5, R16). The delimiter is taken as read back
dominant: R6 and R7 say nothing of one read back recessive (DESIGN CHOICE, assumption log 28). -/
def startAttempt (s : State) (x : Slot) : Line :=
  { s.line with
    engine := .send, idle := 0, queue := markInFlight (kindOf x.content) (payloadNow s x.content) s.line.queue }

/-- The conditions of R5 on a running station. -/
def mayAttempt (s : State) : Bool :=
  s.start.running && decide (s.line.engine = .idle) && decide (s.view.link ≠ .silent)

/-- TRANSMIT_ATTEMPT_START (R5). -/
def execTransmitAttemptStart (s : State) : Answer :=
  .next (if mayAttempt s then
      match chosenSlot s.line.queue with
      | some x => s.setLine (startAttempt s x)
      | none => s
    else s)

/-! ## LOST_ARBITRATION -/

/-- The line bits of the frame in flight. -/
def bitsInFlight (s : State) (x : Slot) : List Bool := lineBits (kindOf x.content) (ownStation s) (x.sending.getD [])

/-- Is line bit `k` of the frame in flight a recessive bit of its arbitration field (R6)? -/
def mayLose (s : State) (x : Slot) (k : Nat) : Bool :=
  decide (k < arbitrationSpan (kindOf x.content) (ownStation s) (x.sending.getD [])) && decide ((bitsInFlight s x)[k]? = some true)

/-- The sender becomes a receiver of the winning frame: it holds the bits read so far, the one it lost on read dominant;
its slot returns to the queue (R6). That bit can be a stuffing violation, and then the frame is discarded (R2, R11). -/
def loseArbitration (sent : List Bool) (k : Nat) (l : Line) : Line :=
  let l1 := { l with queue := l.queue.map returnSlot, idle := 0 }
  match receiveBits Assembler.start (sent.take k ++ [false]) with
  | some (.more a) => { l1 with engine := .receive, assembler := a }
  | _ => { l1 with engine := .hunt, assembler := Assembler.start }

/-- LOST_ARBITRATION (R6). -/
def execLostArbitration (k : Nat) (s : State) : Answer :=
  .next (if s.start.running ∧ s.line.engine = .send then
      match inFlightSlot s.line.queue with
      | some x => if mayLose s x k then s.setLine (loseArbitration (bitsInFlight s x) k s.line) else s
      | none => s
    else s)

/-! ## BIT_ERROR, ABORT_END -/

/-- Is bit `k` of the frame in flight, read back at the other level, a bit error: one of its bits, and not a recessive one
of the arbitration field (R6, R7)? -/
def mayErr (s : State) (x : Slot) (k : Nat) : Bool := decide (k < (bitsInFlight s x).length) && !mayLose s x k

/-- The line engine at a bit error in bit `k` of the line bits `sent`: ABORT; the idle count has followed the bits before
it and its readback (R7, R3). -/
def meetBitError (sent : List Bool) (k : Nat) (l : Line) : Line :=
  { l with engine := .abort, idle := idleAfter 0 (sent.take k ++ (sent[k]?.map (!·)).toList) }

/-- BIT_ERROR (R7): the sender goes over to its 8 dominant bits. -/
def execBitError (s : State) (k : Nat := 0) : Answer :=
  .next (if s.start.running ∧ s.line.engine = .send then
      match inFlightSlot s.line.queue with
      | some x => if mayErr s x k then s.setLine (meetBitError (bitsInFlight s x) k s.line) else s
      | none => s
    else s)

/-- The line engine after an abort that counts and does not bring the run to 16 (R7, R21; assumption log 9). -/
def abortCounted (l : Line) : Line :=
  { l with engine := .hunt, idle := 0, queue := l.queue.map returnSlot, failures := l.failures + 1 }

/-- The line engine after a line-engine reset (R22). -/
def lineReset (l : Line) : Line :=
  { l with engine := .hunt, idle := 0, assembler := Assembler.start, queue := [], failures := 0, lineFault := true }

/-- The peer view on a line-engine reset: LISTEN and JOINED become ISOLATED (R35). -/
def resetLink (s : State) : State :=
  match s.view.link with
  | .listen => enterIsolated s
  | .joined => enterIsolated s
  | .isolated => s
  | .silent => s

/-- The abort ends (R21, R22, R23). -/
def endAbort (s : State) : State :=
  if s.view.timebaseLost then s.setLine { s.line with engine := .held, idle := 0 }
  else if s.line.failures + 1 < 16 then s.setLine (abortCounted s.line)
  else finish s .none (resetLink (s.setLine (lineReset s.line)))

/-- ABORT_END (R21). -/
def execAbortEnd (s : State) : Answer :=
  .next (if s.start.running ∧ s.line.engine = .abort then endAbort s else s)

/-! ## TRANSMISSION_COMPLETE -/

/-- The line engine after a completed transmission of slot `x` whose line bits are `sent` (R8). -/
def completeLine (x : Slot) (sent : List Bool) (l : Line) : Line :=
  { l with
    engine := .hunt, idle := idleAfter 0 sent, queue := l.queue.filterMap completeSlot, failures := 0
    lastAlarm := alarmSent l.lastAlarm x, lineFault := false }

/-- A completed transmission takes ISOLATED to LISTEN where N_cfg is 1 (R35). -/
def completeLink (s : State) : State := if s.view.link = .isolated ∧ s.nCfg = 1 then enterListen s else s

/-- The transmission of slot `x` completes (R8). -/
def completeTransmission (x : Slot) (s : State) : State :=
  let s1 := completeLink (s.setLine (completeLine x (bitsInFlight s x) s.line))
  if s.line.lineFault ∨ s1.view.link ≠ s.view.link then finish s .none s1 else s1

/-- TRANSMISSION_COMPLETE (R8). -/
def execTransmissionComplete (s : State) : Answer :=
  .next (if s.start.running ∧ s.line.engine = .send then
      match inFlightSlot s.line.queue with
      | some x => completeTransmission x s
      | none => s
    else s)

/-! ## FRAME_DISCARDED -/

/-- A frame is dropped whole: HUNT with the idle count as it stands from the last dominant bit read (R11). -/
def discardFrame (bits : List Bool) (l : Line) : Line :=
  { l with engine := .hunt, idle := idleAfter l.idle bits, assembler := Assembler.start }

/-- FRAME_DISCARDED (R11): the line levels read end in a verdict of R2, R9 or R10. -/
def execFrameDiscarded (bits : List Bool) (s : State) : Answer :=
  .next (if s.start.running ∧ s.line.engine = .receive ∧ receiveBits s.line.assembler bits = some .discard then
      s.setLine (discardFrame bits s.line)
    else s)

end Sys2Proof.Machine
end

