-- ==== Sys2Proof/Machine/MeterCommands.lean ====
section
/-! DEFINITION. The settle delay and the meter (spec 10). -/

namespace Sys2Proof.Machine

/-- Has the pending-increase timer expired (R161)? -/
def pendingDue (s : State) : Bool := s.start.running && reached s.alloc.pendingDue s.clock

/-- Each applied grant takes the latest computed one, and the timer stops (R161). -/
def applyComputed (s : State) : State := s.setAlloc { s.alloc with applied := s.alloc.computed, pendingDue := none }

/-- PENDING_INCREASE_EXPIRY (R161). -/
def execPendingIncreaseExpiry (s : State) : Answer :=
  .next (if pendingDue s then finish s .realise (applyComputed s) else s)

/-- Is a pulse now accepted: none accepted within the last 20 ms (R169, assumption log 18)? -/
def pulseAccepted (s : State) : Bool :=
  s.start.running && (match s.alloc.newest with | some t => decide (t + 20 ≤ s.clock) | none => true)

/-- An accepted pulse: the stamps move on, the weight goes to the energy accumulator, M is formed afresh (R169). -/
def takePulse (s : State) : State :=
  let a := { s.alloc with newest := some s.clock, previous := s.alloc.newest }
  (s.setAlloc { a with measured := measuredPower s.cfg.meter s.clock a.newest a.previous }).setShift
    { s.shift with energy := min 4294967295 (s.shift.energy + s.cfg.meter.weight) }

/-- METER_PULSE (R169). -/
def execMeterPulse (s : State) : Answer := .next (if pulseAccepted s then measure (takePulse s) else s)

/-- Is a meter check scheduled now (R171)? -/
def checkDue (s : State) : Bool := s.start.running && decide (s.alloc.nextCheck ≤ s.clock)

/-- The meter check: M formed afresh, then the runs and the term (R170, R171). -/
def checkMeter (s : State) : State :=
  let m := measuredPower s.cfg.meter s.clock s.alloc.newest s.alloc.previous
  s.setAlloc (meterRuns s.cfg.meter.margin { s.alloc with measured := m, nextCheck := s.alloc.nextCheck + 1000 })

/-- What a meter check asks of the allocator: a change of the unaccounted term is a change in own requests (R155, R171). -/
def termWork (before s : State) : Work := if s.alloc.term = before.alloc.term then .none else .recompute

/-- METER_CHECK (R171). -/
def execMeterCheck (s : State) : Answer :=
  .next (if checkDue s then finish s (termWork s (checkMeter s)) (checkMeter s) else s)

end Sys2Proof.Machine
end

