-- ==== Sys2Proof/Machine/OverrideCommands.lean ====
section
/-! DEFINITION. The expiry of an override entry (R139). -/

namespace Sys2Proof.Machine

/-- Does a stack hold an entry of this identity that has reached its expiry (R139)? -/
def expiryDue (k : StackId) (source : SourceKind) (origin : Option Station) (s : State) : Bool :=
  s.start.running && (stackOf s.overrides k).any fun e => sameIdentity source origin e && reached e.expiry s.clock

/-- OVERRIDE_EXPIRY (R139). -/
def execOverrideExpiry (k : StackId) (source : SourceKind) (origin : Option Station) (s : State) : Answer :=
  .next (if expiryDue k source origin s then finish s .none (onStackOf k (withoutIdentity source origin) s) else s)

end Sys2Proof.Machine
end

