-- ==== Sys2Proof/Machine/QueryCommands.lean ====
section
/-! DEFINITION. Queries and their replies (R14, R178 to R180). -/

namespace Sys2Proof.Machine

/-- The service block answers a delivered query: a REPLY is offered to the transmit queue (R178). -/
def answerQuery (sender : Station) (p : Vector Byte 3) (s : State) : State := offer (answerTo sender p s) s

/-- Does a payload ask for the record kind of a row: its own code, or one that names none of the six kinds
(assumption log 20)? -/
def asksFor (row : Nat) (p : Vector Byte 3) : Bool := decide (p[1].toNat = row) || decide (6 ≤ p[1].toNat)

/-- A query is delivered when its target is the own strapped number, and dropped otherwise (R14); a payload that asks for
another record kind is no such command. -/
def takeQuery (row : Nat) (sender : Station) (p : Vector Byte 3) (s : State) : State :=
  if asksFor row p then
    if queryTarget p = s.own then takeFrame kindQuery sender p.toList (answerQuery sender p) finishLink s
    else passFrame kindQuery sender p.toList s
  else s

/-- QUERY_STATUS (R179). -/
def execQueryStatus (sender : Station) (p : Vector Byte 3) (s : State) : Answer := .next (takeQuery 0 sender p s)

/-- QUERY_PEER (R179). -/
def execQueryPeer (sender : Station) (p : Vector Byte 3) (s : State) : Answer := .next (takeQuery 1 sender p s)

/-- QUERY_SHIFT (R179). -/
def execQueryShift (sender : Station) (p : Vector Byte 3) (s : State) : Answer := .next (takeQuery 2 sender p s)

/-- QUERY_DOOR (R180). -/
def execQueryDoor (sender : Station) (p : Vector Byte 3) (s : State) : Answer := .next (takeQuery 3 sender p s)

/-- QUERY_OVERRIDES (R180). -/
def execQueryOverrides (sender : Station) (p : Vector Byte 3) (s : State) : Answer := .next (takeQuery 4 sender p s)

/-- QUERY_LOADS (R180). -/
def execQueryLoads (sender : Station) (p : Vector Byte 3) (s : State) : Answer := .next (takeQuery 5 sender p s)

/-- QUERY_DROPPED (R14). -/
def execQueryDropped (sender : Station) (p : Vector Byte 3) (s : State) : Answer :=
  .next (if queryTarget p = s.own then s else passFrame kindQuery sender p.toList s)

end Sys2Proof.Machine
end

