-- ==== Sys2Proof/Machine/ShiftCommands.lean ====
section
/-! DEFINITION. The SHIFT input and the shift tracker's timers (spec 03). -/

namespace Sys2Proof.Machine

/-- The SHIFT input's record changed by `f`. -/
def onShiftInput (f : Debounced → Debounced) (s : State) : State :=
  s.setShift { s.shift with input := f s.shift.input }

/-- Can `event` befall the SHIFT input now (R45)? -/
def shiftInputAdmits (event : InputEvent) (pressed : Bool) (s : State) : Bool :=
  s.start.running && s.shift.input.admits 50 s.clock event pressed

/-- A press outside lockout originates; within it, it is ignored (R46). -/
def press (s : State) : State := if s.shift.lockoutDue = none then originate s else s

/-- SHIFT_INPUT_CHANGE (R45): a raw change starts the stable time again; the first debounced level is the starting value, a
later one to pressed is a press. -/
def execShiftInputChange (pressed : Bool) (s : State) (event : InputEvent := .stable) : Answer :=
  .next (if shiftInputAdmits event pressed s then
      match event with
      | .raw => onShiftInput (Debounced.sample s.clock pressed) s
      | .stable =>
        if pressed ∧ s.shift.input.level ≠ none then finish s .none (press (onShiftInput (Debounced.take pressed) s))
        else onShiftInput (Debounced.take pressed) s
    else s)

/-- Has the changeover timer expired (R53)? -/
def changeoverDue (s : State) : Bool := s.start.running && reached s.shift.changeoverDue s.clock

/-- The changeover ends (R53). -/
def endChangeover (s : State) : State := s.setShift { s.shift with phase := .steady, changeoverDue := none }

/-- CHANGEOVER_TIMER_EXPIRY (R53). -/
def execChangeoverTimerExpiry (s : State) : Answer :=
  .next (if changeoverDue s then finish s .none (endChangeover s) else s)

/-- Has the lockout ended (R47)? -/
def lockoutDue (s : State) : Bool := s.start.running && reached s.shift.lockoutDue s.clock

/-- LOCKOUT_TIMER_EXPIRY (R47): the timer stops, and nothing else happens. -/
def execLockoutTimerExpiry (s : State) : Answer :=
  .next (if lockoutDue s then s.setShift { s.shift with lockoutDue := none } else s)

end Sys2Proof.Machine
end

