-- ==== Sys2Proof/Machine/ViewCommands.lean ====
section
/-! DEFINITION. The peer view's timers and the timebase (spec 02); each timer's due moment stands beside its command. -/

namespace Sys2Proof.Machine

/-! ## BEACON_SCHEDULING -/

/-- Has the beacon schedule come (R31)? -/
def beaconDue (s : State) : Bool := s.start.running && decide (s.view.nextBeacon ≤ s.clock)

/-- The sequence advances and a BEACON is offered, except in SILENT (R31). -/
def scheduleBeacon (s : State) : State :=
  let s1 := s.setView { s.view with nextBeacon := s.view.nextBeacon + s.cfg.header.interval }
  if s.view.link = .silent then s1
  else offer .beacon (s1.setView { s1.view with sequence := s.view.sequence + 1 })

/-- The balancing step: only in JOINED with balance-available set (R133). -/
def balance (s : State) : State :=
  if s.view.link = .joined ∧ s.air.available then
    s.setAir { s.air with balancing := balanceStep s.cfg.air (balanceViews s) s.air.balancing }
  else s

/-- BEACON_SCHEDULING (R31). -/
def execBeaconScheduling (s : State) : Answer :=
  .next (if beaconDue s then finish s .none (balance (scheduleBeacon s)) else s)

/-! ## ENTRY_STALE, ENTRY_LOST -/

/-- The moment a number of declared intervals after the entry's last beacon (R29). -/
def entryDue (intervals : Nat) (e : PeerEntry) : Option Nat := e.beacon.map fun b => e.heardAt + intervals * b.interval

/-- Entry `n` of the view table. -/
def entryOf (n : Nat) (s : State) : PeerEntry := s.view.entries.getD n PeerEntry.empty

/-- Has a FRESH entry reached 3 of its declared intervals (R29)? -/
def staleDue (n : Fin 32) (s : State) : Bool :=
  s.start.running && decide ((entryOf n.val s).state = .fresh) && reached (entryDue 3 (entryOf n.val s)) s.clock

/-- ENTRY_STALE (R29). -/
def execEntryStale (n : Fin 32) (s : State) : Answer :=
  .next (if staleDue n s then finish s .recompute (onEntry n.val (fun e => { e with state := .stale }) s) else s)

/-- Has a STALE entry reached 10 of its declared intervals (R29)? -/
def lostDue (n : Fin 32) (s : State) : Bool :=
  s.start.running && decide ((entryOf n.val s).state = .stale) && reached (entryDue 10 (entryOf n.val s)) s.clock

/-- The lower neighbour's entry has become LOST: UNCERTAIN is set (R67). -/
def lowerLost (n : Nat) (s : State) : State :=
  if n + 1 = s.own then s.setTraffic { s.traffic with uncertain := true } else s

/-- ENTRY_LOST (R29). -/
def execEntryLost (n : Fin 32) (s : State) : Answer :=
  .next (if lostDue n s then
      finish s .recompute (lowerLost n.val (onEntry n.val (fun e => { e with state := .lost }) s))
    else s)

/-! ## LISTEN_TIMER_EXPIRY, ISOLATION_TIMER_EXPIRY -/

/-- Has the listen timer expired (R33)? -/
def listenDue (s : State) : Bool :=
  s.start.running && decide (s.view.link = .listen) && reached s.view.listenDue s.clock

/-- The link state after the listen period (R33). -/
def endListen (s : State) : State := if s.view.heard ∨ s.nCfg = 1 then enterJoined s else enterIsolated s

/-- LISTEN_TIMER_EXPIRY (R33). -/
def execListenTimerExpiry (s : State) : Answer :=
  .next (if listenDue s then finish s .none (endListen s) else s)

/-- Has the isolation timer expired (R34)? -/
def isolationDue (s : State) : Bool :=
  s.start.running && decide (s.view.link = .joined ∧ 2 ≤ s.nCfg) && reached s.view.isolationDue s.clock

/-- ISOLATION_TIMER_EXPIRY (R34). -/
def execIsolationTimerExpiry (s : State) : Answer :=
  .next (if isolationDue s then finish s .none (enterIsolated s) else s)

/-! ## TIMEBASE_LOST, TIMEBASE_RECOVERED -/

/-- The line engine when the timebase is lost (R23). -/
def holdLine (l : Line) : Line :=
  match l.engine with
  | .send => { l with engine := .abort, idle := 0 }
  | .abort => l
  | .receive => { l with engine := .held, assembler := Assembler.start }
  | .held => l
  | .hunt => { l with engine := .held }
  | .idle => { l with engine := .held }

/-- A passage under way is no longer clean (R60). -/
def spoilPassage (t : Traffic) : Traffic := { t with clean := t.clean && t.first.isNone }

/-- The timebase state becomes LOST, or its loss begins again during the recovery time (R39, R40). -/
def markLoss (s : State) : State := s.setView { s.view with timebaseLost := true, timebaseMark := s.clock }

/-- The timebase is lost on a running station (R39). -/
def loseTimebase (s : State) : State :=
  let s1 := (s.setLine (holdLine s.line)).setTraffic (spoilPassage s.traffic)
  finish s .none (addCause .timebase (markLoss s1))

/-- TIMEBASE_LOST (R39). A renewed gap during the recovery time only begins the 100 ms again: R40 calls it a new loss with the
timebase state staying LOST, and whether it is R60's 'the timebase becoming lost' the spec does not say. A passage whose first
stamp was taken in the recovery time stays clean (DESIGN CHOICE, assumption log 24). During a start sequence only the timebase state and its cause are written (R39, R174). -/
def execTimebaseLost (s : State) : Answer :=
  .next (if s.view.timebaseLost then markLoss s
    else if s.start.running then loseTimebase s
    else let s1 := markLoss s; s1.setView { s1.view with causes := s1.view.causes.put .timebase true })

/-- Have reference edges been present for 100 ms since the last loss (R40, assumption log 24)? -/
def mayRecover (s : State) : Bool := s.view.timebaseLost && decide (s.view.timebaseMark + 100 ≤ s.clock)

/-- The line engine leaves HELD for HUNT with the idle count at 0 (R23). -/
def releaseLine (l : Line) : Line := if l.engine = .held then { l with engine := .hunt, idle := 0 } else l

/-- The timebase is recovered on a running station (R40). -/
def recoverTimebase (s : State) : State :=
  finish s .none (removeCause .timebase ((s.setLine (releaseLine s.line)).setView { s.view with timebaseLost := false }))

/-- TIMEBASE_RECOVERED (R40). During a start sequence only the timebase state and its cause are written (R24). -/
def execTimebaseRecovered (s : State) : Answer :=
  .next (if mayRecover s then
      if s.start.running then recoverTimebase s
      else s.setView { s.view with timebaseLost := false, causes := s.view.causes.put .timebase false }
    else s)

end Sys2Proof.Machine
end

