-- ==== Sys2Proof/Machine/Clock.lean ====
section
/-! DEFINITION. The own clock: one millisecond passes, and the timer events that fall due are queued
(R29, R31, R106, R171 and the other timers; assumption log 1). -/

namespace Sys2Proof.Machine

/-- The expiries of the entries of one stack (R139). -/
def stackExpiries (k : StackId) (stack : List OverrideEntry) : List Instr :=
  stack.map fun e => .overrideExpiry k e.source e.origin

/-- The debounced changes of the inputs to the raw levels they show (R45, R90, R93), the settling of doors first. -/
def debounceEvents (s : State) : List Instr :=
  [ [.shiftInputChange s.shift.input.raw .stable, .manualAsserted .stable, .manualReleased .stable],
    (List.finRange 8).map (settlingCommand s), (List.finRange 8).map (contactCommand s),
    (List.finRange 8).map (trailerCommand s) ].flatten

/-- Every timer event the station can have, whether due or not. A temperature reading, a gas sample and every raw change of
an input bring a value from outside and are not among them. -/
def timerEvents (s : State) : List Instr :=
  [ [.listenTimerExpiry, .isolationTimerExpiry, .changeoverTimerExpiry, .lockoutTimerExpiry],
    stackExpiries .light s.overrides.light, stackExpiries .heat s.overrides.heat, stackExpiries .vent s.overrides.vent,
    (List.finRange 32).map .entryStale, (List.finRange 32).map .entryLost,
    [.beaconScheduling, .gateFaultClear], (List.finRange 4).map .zoneHoldExpiry,
    [.vacancyCorrection, .leadInTimerExpiry, .vacatingTimerExpiry],
    (List.finRange 8).map .doorHoldExpiry, (List.finRange 8).map .doorFaultClear, [.boostRecoveryExpiry],
    (List.finRange 8).map .openSecondsAdvance, (List.finRange 4).map .stageMinOnExpiry,
    (List.finRange 4).map .stageMinOffExpiry, (List.finRange 2).map .coastTimerExpiry,
    (List.finRange 2).map .rampTimerExpiry, (List.finRange 4).map .levelRiseStep,
    [.pendingIncreaseExpiry, .meterCheck], debounceEvents s ].flatten

/-- Is a timer event due; false for every command that is not one. -/
def isDue (s : State) (c : Instr) : Bool :=
  match c with
  | .listenTimerExpiry => listenDue s
  | .isolationTimerExpiry => isolationDue s
  | .changeoverTimerExpiry => changeoverDue s
  | .lockoutTimerExpiry => lockoutDue s
  | .overrideExpiry k source origin => expiryDue k source origin s
  | .entryStale n => staleDue n s
  | .entryLost n => lostDue n s
  | .beaconScheduling => beaconDue s
  | .gateFaultClear => gateClearDue s
  | .zoneHoldExpiry z => zoneDue z s
  | .vacancyCorrection => vacancyDue s
  | .leadInTimerExpiry => leadInDue s
  | .vacatingTimerExpiry => vacatingDue s
  | .doorHoldExpiry d => doorHoldDue d s
  | .doorFaultClear d => doorClearDue d s
  | .boostRecoveryExpiry => boostDue s
  | .openSecondsAdvance d => openSecondsDue d s
  | .stageMinOnExpiry k => stageTest k minOnDue s
  | .stageMinOffExpiry k => stageTest k minOffDue s
  | .coastTimerExpiry n => coastDue n s
  | .rampTimerExpiry n => rampDue n s
  | .levelRiseStep i => riseStepDue i s
  | .pendingIncreaseExpiry => pendingDue s
  | .meterCheck => checkDue s
  | .shiftInputChange pressed .stable => shiftInputAdmits .stable pressed s
  | .manualAsserted .stable => manualAdmits .stable true s
  | .manualReleased .stable => manualAdmits .stable false s
  | .doorSettlingEnds d isOpen isPresent => settlingDue d isOpen isPresent s
  | .doorContactChange d isOpen .stable => contactAdmits d .stable isOpen s
  | .doorTrailerChange d isPresent .stable => trailerAdmits d .stable isPresent s
  | _ => false

/-- The timer events that are due now. -/
def dueCommands (s : State) : List Instr := (timerEvents s).filter (isDue s)

/-- One millisecond of the own timebase passes on an empty queue. -/
def tick (s : State) : State :=
  let s1 := s.setClock (s.clock + 1)
  s1.setPending (dueCommands s1)

end Sys2Proof.Machine
end

