-- ==== Sys2Proof/Machine/Dispatch.lean ====
section
/-! DEFINITION. One arm per command: each calls the meaning of its own. -/

namespace Sys2Proof.Machine

def exec (i : Instr) (s : State) : Host.Outcome State Fault Refusal :=
  match i with
  | .powerOnReset => Sys2Proof.Machine.execPowerOnReset s
  | .startSequenceEnd reading => Sys2Proof.Machine.execStartSequenceEnd reading s
  | .lineIdle bits => Sys2Proof.Machine.execLineIdle s bits
  | .transmitAttemptStart => Sys2Proof.Machine.execTransmitAttemptStart s
  | .lostArbitration lineBit => Sys2Proof.Machine.execLostArbitration lineBit s
  | .bitError lineBit => Sys2Proof.Machine.execBitError s lineBit
  | .abortEnd => Sys2Proof.Machine.execAbortEnd s
  | .transmissionComplete => Sys2Proof.Machine.execTransmissionComplete s
  | .frameDiscarded bits => Sys2Proof.Machine.execFrameDiscarded bits s
  | .beaconReceived sender payload => Sys2Proof.Machine.execBeaconReceived sender payload s
  | .handoffReceived sender payload => Sys2Proof.Machine.execHandoffReceived sender payload s
  | .shiftReceived sender payload => Sys2Proof.Machine.execShiftReceived sender payload s
  | .alarmReceived sender payload => Sys2Proof.Machine.execAlarmReceived sender payload s
  | .replyReceived sender payload => Sys2Proof.Machine.execReplyReceived sender payload s
  | .lightSet sender payload => Sys2Proof.Machine.execLightSet sender payload s
  | .heatHold sender payload => Sys2Proof.Machine.execHeatHold sender payload s
  | .heatSetpoint sender payload => Sys2Proof.Machine.execHeatSetpoint sender payload s
  | .heatBoost sender payload => Sys2Proof.Machine.execHeatBoost sender payload s
  | .ventPurge sender payload => Sys2Proof.Machine.execVentPurge sender payload s
  | .ventStop sender payload => Sys2Proof.Machine.execVentStop sender payload s
  | .release sender payload => Sys2Proof.Machine.execRelease sender payload s
  | .alarmAck sender payload => Sys2Proof.Machine.execAlarmAck sender payload s
  | .restart sender payload => Sys2Proof.Machine.execRestart sender payload s
  | .queryStatus sender payload => Sys2Proof.Machine.execQueryStatus sender payload s
  | .queryPeer sender payload => Sys2Proof.Machine.execQueryPeer sender payload s
  | .queryShift sender payload => Sys2Proof.Machine.execQueryShift sender payload s
  | .queryDoor sender payload => Sys2Proof.Machine.execQueryDoor sender payload s
  | .queryOverrides sender payload => Sys2Proof.Machine.execQueryOverrides sender payload s
  | .queryLoads sender payload => Sys2Proof.Machine.execQueryLoads sender payload s
  | .beaconScheduling => Sys2Proof.Machine.execBeaconScheduling s
  | .entryStale entry => Sys2Proof.Machine.execEntryStale entry s
  | .entryLost entry => Sys2Proof.Machine.execEntryLost entry s
  | .listenTimerExpiry => Sys2Proof.Machine.execListenTimerExpiry s
  | .isolationTimerExpiry => Sys2Proof.Machine.execIsolationTimerExpiry s
  | .timebaseLost => Sys2Proof.Machine.execTimebaseLost s
  | .timebaseRecovered => Sys2Proof.Machine.execTimebaseRecovered s
  | .shiftInputChange pressed event => Sys2Proof.Machine.execShiftInputChange pressed s event
  | .changeoverTimerExpiry => Sys2Proof.Machine.execChangeoverTimerExpiry s
  | .lockoutTimerExpiry => Sys2Proof.Machine.execLockoutTimerExpiry s
  | .gateBeamChange beam => Sys2Proof.Machine.execGateBeamChange beam s
  | .invalidTransition => Sys2Proof.Machine.execInvalidTransition s
  | .gateFaultClear => Sys2Proof.Machine.execGateFaultClear s
  | .presenceAsserted zone => Sys2Proof.Machine.execPresenceAsserted zone s
  | .presenceReleased zone => Sys2Proof.Machine.execPresenceReleased zone s
  | .zoneHoldExpiry zone => Sys2Proof.Machine.execZoneHoldExpiry zone s
  | .vacancyCorrection => Sys2Proof.Machine.execVacancyCorrection s
  | .leadInTimerExpiry => Sys2Proof.Machine.execLeadInTimerExpiry s
  | .vacatingTimerExpiry => Sys2Proof.Machine.execVacatingTimerExpiry s
  | .levelRiseStep channel => Sys2Proof.Machine.execLevelRiseStep channel s
  | .manualAsserted event => Sys2Proof.Machine.execManualAsserted s event
  | .manualReleased event => Sys2Proof.Machine.execManualReleased s event
  | .doorContactChange door isOpen event => Sys2Proof.Machine.execDoorContactChange door isOpen s event
  | .doorTrailerChange door present event => Sys2Proof.Machine.execDoorTrailerChange door present s event
  | .doorHoldExpiry door => Sys2Proof.Machine.execDoorHoldExpiry door s
  | .doorFaultClear door => Sys2Proof.Machine.execDoorFaultClear door s
  | .boostRecoveryExpiry => Sys2Proof.Machine.execBoostRecoveryExpiry s
  | .temperatureReading value => Sys2Proof.Machine.execTemperatureReading value s
  | .stageMinOnExpiry stage => Sys2Proof.Machine.execStageMinOnExpiry stage s
  | .stageMinOffExpiry stage => Sys2Proof.Machine.execStageMinOffExpiry stage s
  | .gasSample gas value => Sys2Proof.Machine.execGasSample gas value s
  | .coastTimerExpiry fan => Sys2Proof.Machine.execCoastTimerExpiry fan s
  | .rampTimerExpiry fan => Sys2Proof.Machine.execRampTimerExpiry fan s
  | .overrideExpiry stack source origin => Sys2Proof.Machine.execOverrideExpiry stack source origin s
  | .pendingIncreaseExpiry => Sys2Proof.Machine.execPendingIncreaseExpiry s
  | .meterPulse => Sys2Proof.Machine.execMeterPulse s
  | .meterCheck => Sys2Proof.Machine.execMeterCheck s
  | .startDelimiter => Sys2Proof.Machine.execStartDelimiter s
  | .directiveDropped sender payload => Sys2Proof.Machine.execDirectiveDropped sender payload s
  | .queryDropped sender payload => Sys2Proof.Machine.execQueryDropped sender payload s
  | .doorSettlingEnds door isOpen present => Sys2Proof.Machine.execDoorSettlingEnds door isOpen present s
  | .openSecondsAdvance door => Sys2Proof.Machine.execOpenSecondsAdvance door s

end Sys2Proof.Machine
end

