-- ==== Sys2Proof/Machine/Outputs.lean ====
section
/-! DEFINITION. The field outputs, each a function of the state (R80, R87, R89, R100, R117, R131, R151, R174 step 1). -/

namespace Sys2Proof.Machine

/-- The duty of a lighting channel (R80); held off during a start sequence (R174 step 1): dark, which is duty 100 for
FOLLOW_INVERTED, except at a power-on reset. -/
def channelDuty (s : State) (mode : ChannelMode) (ch : Channel) : Nat :=
  if s.start.running then
    match mode with
    | .offForced => 0
    | .follow => ch.present
    | .followInverted => 100 - ch.present
    | .fullForced => ch.present
  else if s.start.cause = .restart ∧ mode = .followInverted then 100
  else 0

/-- The four duties. -/
def lightingDuties (s : State) : List Nat :=
  List.zipWith (fun (c : ChannelConfig) ch => channelDuty s c.mode ch) s.cfg.lighting.channels s.lighting.channels

/-- The dock light outputs (R89). -/
def dockOutputs (s : State) : List Bool := s.lighting.docks.map fun d => s.start.running && d.output

/-- The curtain outputs (R100). -/
def curtainOutputs (s : State) : List Bool := s.doors.records.map fun d => s.start.running && d.curtainOn

/-- The heater stage outputs (R117). -/
def stageOutputs (s : State) : List Bool := s.heat.stages.map fun st => s.start.running && st.on

/-- A fan drive: direction and speed, nothing while it is off (R131). -/
def fanDrive (s : State) (f : Fan) : Option (AirDir × Nat) :=
  if s.start.running ∧ 0 < f.present then f.direction.map fun d => (d, f.present) else none

/-- The attention pin's level, nothing while it is not driven (R151). -/
def attentionPin (s : State) : Option Bool :=
  if s.start.running then
    some (attentionAsserted s.cfg.alarms.annunciate s.alarms == s.cfg.alarms.assertedHigh)
  else none

end Sys2Proof.Machine
end

