-- ==== Sys2Proof/Safety.lean ====
section
/-! DEFINITION. What a sound state of the station is, piece by piece, and what the end of an event leaves as it was.
The statements about the machine are made in these terms. -/

namespace Sys2Proof.Machine

/-! ## Demands -/

/-- A stage's demand is the one its row of Table 25 gives: CALLED at the row's tier; released, it is NONE without a
record while OFF, and HOLDING at tier 3 while ON, which an immediate release excludes (R113, R116). -/
def StageDemandOk (row : StageCall) (st : Stage) : Prop :=
  match row with
  | .called t => st.demand = .called ∧ st.tier = some t
  | .released immediate =>
    if st.on then immediate = false ∧ st.demand = .holding ∧ st.tier = some 3
    else st.demand = .none ∧ st.tier = none ∧ st.granted = false

/-- The same before the event has ended: the granted flag still stands with the record the allocator knows (R114). -/
def StageFormed (row : StageCall) (st : Stage) : Prop :=
  match row with
  | .called t => st.demand = .called ∧ st.tier = some t
  | .released immediate =>
    if st.on then immediate = false ∧ st.demand = .holding ∧ st.tier = some 3 else st.demand = .none ∧ st.tier = none

/-- The desired level and tier of channel `i` by its mode, or by its ruling LIGHT entry and the row of Table 17 (R80 to R82). -/
def ChannelRow (s : State) (i : Nat) (mode : ChannelMode) (desired : Nat) (tier : Option Tier) : Prop :=
  let page := s.start.config.pages.getD s.shift.page.val (Page.builtIn 0)
  let rule := ruling (s.overrides.light.filter fun e => match e.effect with
    | .level _ named => named.getLsbD i
    | _ => false)
  (mode = .offForced → desired = 0 ∧ tier = none) ∧
  (mode = .fullForced → desired = 100 ∧ tier = some 0) ∧
  (mode = .follow ∨ mode = .followInverted →
    (∀ e percent named, rule = some e → e.effect = .level percent named →
      desired = percent ∧ tier = some (if e.source = .directive then 2 else 1)) ∧
    (rule = none → match s.lighting.bay with
      | .occupied => desired = page.work.getD i 0 ∧ tier = some 1
      | .leadIn => desired = page.work.getD i 0 ∧ tier = some 2
      | .vacating => desired = page.work.getD i 0 ∧ tier = some 2
      | .vacant => desired = page.standby.getD i 0 ∧ tier = some 3))

/-- A fan's record is what a row of Table 31 gives; with no direction in the row the requested one is any. -/
def FanDemandOk (d : FanDemand) (f : Fan) : Prop :=
  f.source = d.source ∧ f.desired = d.speed ∧ f.tier = d.tier ∧ ∀ dir, d.dir = some dir → f.requested = dir

/-- The demands of every unit are those its table gives for the state as it stands (Tables 17, 25 and 31, R88, R100, R111,
R132). -/
structure DemandsOk (s : State) : Prop where
  channels : ∀ (i : Nat) (c : ChannelConfig) (ch : Channel), s.cfg.lighting.channels[i]? = some c →
    s.lighting.channels[i]? = some ch →
    (ch.desired, ch.tier) = channelChoice c.mode (currentPage s) s.lighting.bay s.overrides.light i
  docks : ∀ (i : Nat) (d : Door) (k : DockLight), s.doors.records[i]? = some d → s.lighting.docks[i]? = some k →
    k.demanded = decide (d.state = .openSealed)
  curtains : ∀ d ∈ s.doors.records, d.curtainDemanded = (isUnsealedState d.state && !d.settling)
  setpoint : (s.heat.setpoint, s.heat.source) =
    baseSetpoint (currentPage s) s.lighting.bay (rulingEffect s.overrides.heat)
  effective : s.heat.effective = s.heat.setpoint + (if s.doors.boost then s.cfg.heat.boostDelta else 0)
    + ruleDelta (rulingEffect s.overrides.heat)
  stages : ∀ (k : Nat) (c : StageConfig) (st : Stage), s.cfg.heat.stages[k]? = some c → s.heat.stages[k]? = some st →
    StageDemandOk (stageCall (isWorking s) (holdRules (rulingEffect s.overrides.heat)) s.heat k st.call) st
  fan1 : FanDemandOk (resolveFan1 s.air.gasClass s.cfg.air.actionSpeed (rulingEffect s.overrides.vent)
    (currentPage s).minVent (isWorking s || occupied s.traffic)) s.air.fan1
  fan2 : FanDemandOk (resolveFan2 s.air.gasClass (rulingEffect s.overrides.vent) (assistApplies s)
    s.cfg.air.assistSpeed s.cfg.air.fan2.flow s.air.balancing) s.air.fan2
  balancing : (s.view.link ≠ .joined ∨ takesFan2 s.air.fan2.source) → s.air.balancing = 0
  available : s.air.available = decide (s.air.fan2.source = .none ∨ s.air.fan2.source = .balancing)

/-! ## What the end of an event leaves -/

/-- A door without its curtain's three flags. -/
def Door.bare (d : Door) : Door := { d with curtainDemanded := false, curtainGranted := false, curtainOn := false }

/-- The meter's fields and the unaccounted check of the allocator, without the grants and draws. -/
def Alloc.meter (a : Alloc) : Alloc :=
  { a with
    requests := Requests.zero, computed := Grants.zero, applied := Grants.zero, pendingDue := none, energised := 0,
    reported := 0, capExceeded := false }

/-- No OFF stage that is CALLED and granted has its min-off time elapsed, no ON stage is without its grant, and no HOLDING
stage has its min-on time elapsed (R115, R116). -/
def StageSettled (now : Nat) (c : StageConfig) (st : Stage) : Prop :=
  ¬(st.on = false ∧ st.demand = .called ∧ st.granted = true ∧ st.since + c.minOff * 1000 ≤ now) ∧
  ¬(st.on = true ∧ st.granted = false) ∧
  ¬(st.on = true ∧ st.demand = .holding ∧ st.since + c.minOn * 1000 ≤ now)

/-- The lighting channel follows its target, the lesser of desired and granted level: it does not stand above it, and a
rise is under way exactly below it (R84 to R86). -/
def ChannelSettled (c : Channel) : Prop :=
  c.target = min c.desired c.granted ∧ c.present ≤ c.target ∧ (c.present < c.target ↔ c.rise ≠ none)

/-- The channel's light moves from `c` to `c'` at `now`: it stands with its rise, or it falls at once, or a rise begins now
from the level it has; an event makes it no brighter at once (R85, R86). -/
def ChannelMoved (now : Nat) (c c' : Channel) : Prop :=
  c'.present ≤ c.present ∧
    ((c'.rise = c.rise ∧ c'.present = c.present) ∨ c'.rise = none ∨ c'.rise = some (c'.present, now))

/-- The fan follows its target speed, the lesser of desired and granted speed, and its requested direction (R127, R128,
R130): STOPPED has no target; RUNNING has one, in the requested direction, is not above it, and its ramp timer runs
exactly below it; COASTING waits unless the target is above 0 in its own direction. -/
def FanSettled (f : Fan) : Prop :=
  f.target = min f.desired f.granted ∧
    match f.state with
    | .stopped => f.target = 0
    | .running => 0 < f.target ∧ f.direction = some f.requested ∧ f.present ≤ f.target ∧
        (f.present < f.target ↔ f.rampDue ≠ none)
    | .coasting => ¬(0 < f.target ∧ f.direction = some f.requested)

/-- The fan moves from `f` to `f'` at `now` (R128, R130): none stops but by its coast timer; a fan that was not coasting
coasts with speed 0 and its coast timer started now; a ramp timer that runs stands or was started now. -/
def FanMoved (now : Nat) (c : FanConfig) (f f' : Fan) : Prop :=
  match f'.state with
  | .stopped => f.state = .stopped ∧ f'.present = f.present ∧ f'.direction = f.direction
  | .running => f'.rampDue = none ∨ f'.rampDue = some (now + c.ramp) ∨
      (f.state = .running ∧ f'.rampDue = f.rampDue ∧ f'.present = f.present)
  | .coasting => (f.state = .coasting ∧ f'.present = f.present ∧ f'.direction = f.direction ∧ f'.coastDue = f.coastDue ∧
        f'.rampDue = f.rampDue) ∨
      (f'.present = 0 ∧ f'.rampDue = none ∧ f'.coastDue = some (now + c.coast * 1000))

/-- `t` follows `s` by the end alone of an event that began in state `before`. What no unit's publishing, grant, output, alarm
flag, occupancy correction or ALARM offer touches stands in `t` as in `s`, and what the units hand on is as their rules
give it. -/
structure EventFrame (before s t : State) : Prop where
  pending : t.pending = s.pending
  clock : t.clock = s.clock
  start : t.start = s.start
  /-- The summaries are offered to the transmit queue exactly where one has changed or the link state has left SILENT; in
  SILENT nothing is inserted (R149, R19, R20). -/
  line : t.line = if t.view.link ≠ .silent ∧ (t.alarms ≠ before.alarms ∨ before.view.link = .silent) then
    insertBulletin (.alarm t.alarms.active t.alarms.latched) s.line else s.line
  view : t.view = s.view
  /-- Only the peak P accumulator may move. -/
  shift : t.shift = { s.shift with peak := t.shift.peak }
  /-- The peak P accumulator takes a changed P that is above it (R54, R156). -/
  peak : t.shift.peak = if t.alloc.reported = s.alloc.reported then s.shift.peak else max s.shift.peak t.alloc.reported
  /-- Only UNCERTAIN, the vacancy timer and, by a correction at once, the count may move. -/
  traffic : t.traffic = { s.traffic with
    count := t.traffic.count, uncertain := t.traffic.uncertain, vacancySince := t.traffic.vacancySince }
  /-- The count is set to 0 at once where UNCERTAIN has become set with the vacancy timer past a quarter of V; otherwise it
  stands (R70). -/
  count : t.traffic.count = if present s.traffic = false ∧ (s.traffic.gate = .fault ∨ s.traffic.uncertain = true) ∧
      before.traffic.uncertain = false ∧ s.traffic.vacancySince.getD s.clock + s.cfg.gate.vacancy * 250 ≤ s.clock then 0
    else s.traffic.count
  /-- UNCERTAIN is set in a gate fault, and clears where the bay stands empty without one (R71). -/
  uncertain : t.traffic.uncertain = if s.traffic.gate = .fault then true
    else if t.traffic.count = 0 ∧ present s.traffic = false then false else s.traffic.uncertain
  /-- The vacancy timer runs while the count is above 0 and the bay is not present (R70). -/
  vacancy : t.traffic.vacancySince = if 0 < t.traffic.count ∧ present s.traffic = false then
    some (s.traffic.vacancySince.getD s.clock) else none
  /-- The bay lighting state follows occupied (R76). -/
  bay : t.lighting.bay = if occupied t.traffic then .occupied
    else if s.lighting.bay = .occupied then .vacating else s.lighting.bay
  /-- A change of the bay lighting state stops the lead-in timer (R76). -/
  leadIn : t.lighting.leadInDue = if t.lighting.bay = s.lighting.bay then s.lighting.leadInDue else none
  /-- The vacating timer starts when occupied becomes false and stops when it becomes true (R76). -/
  vacating : t.lighting.vacatingDue = if t.lighting.bay = s.lighting.bay then s.lighting.vacatingDue
    else if occupied t.traffic then none else some (s.clock + s.cfg.lighting.vacatingHold * 1000)
  manual : t.lighting.manual = s.lighting.manual
  /-- Only the curtains' flags may move. -/
  doors : t.doors.records.map Door.bare = s.doors.records.map Door.bare
  /-- The open-unsealed count is formed afresh, and boost with it (R101, R102). -/
  openUnsealed : t.doors.openUnsealed = countUnsealed s.doors.records
  boost : t.doors.boost = (settleBoost s.clock s.cfg.doors.recovery s.doors).boost
  recovery : t.doors.recoveryDue = (settleBoost s.clock s.cfg.doors.recovery s.doors).recoveryDue
  /-- Only the setpoint record and the stages may move. -/
  heat : t.heat = { s.heat with
    setpoint := t.heat.setpoint, source := t.heat.source, effective := t.heat.effective, stages := t.heat.stages }
  /-- The threshold calls are judged against the effective setpoint (R112). -/
  calls : t.heat.stages.map Stage.call =
    (judgeCallsFrom s.cfg.heat s.heat.fault s.heat.last t.heat.effective 0 s.heat.stages).map Stage.call
  /-- A stage is switched only at this moment, and one that goes off in this event stays off (R115, R116). -/
  switches : (∀ c ∈ s.cfg.heat.stages, 0 < c.minOff) → ∀ (k : Nat) (st st' : Stage),
    s.heat.stages[k]? = some st → t.heat.stages[k]? = some st' →
    (st'.on = st.on ∧ st'.since = st.since) ∨
      (st'.since = s.clock ∧ (st.on = true → st'.on = false) ∧ (st.since = s.clock → st'.on = false))
  /-- Every stage is switched as its demand, its grant and its times require (R115, R116). -/
  settled : ∀ (k : Nat) (c : StageConfig) (st' : Stage), s.cfg.heat.stages[k]? = some c → t.heat.stages[k]? = some st' →
    StageSettled s.clock c st'
  /-- Every unit's demands are formed for the state as it stands (R154). -/
  demands : DemandsOk t
  /-- Every channel follows its target (R84 to R86). -/
  lights : ∀ c ∈ t.lighting.channels, ChannelSettled c
  lightMoves : ∀ (i : Nat) (c c' : Channel), s.lighting.channels[i]? = some c → t.lighting.channels[i]? = some c' →
    ChannelMoved s.clock c c'
  /-- Each fan follows its target speed and its requested direction (R127, R128, R130). -/
  fan1 : FanSettled t.air.fan1 ∧ FanMoved s.clock s.cfg.air.fan1 s.air.fan1 t.air.fan1
  fan2 : FanSettled t.air.fan2 ∧ FanMoved s.clock s.cfg.air.fan2 s.air.fan2 t.air.fan2
  /-- A dock light is ON exactly while demanded and granted, a curtain too (R89, R100). -/
  docks : ∀ d ∈ t.lighting.docks, d.output = (d.demanded && d.granted)
  curtains : ∀ d ∈ t.doors.records, d.curtainOn = (d.curtainDemanded && d.curtainGranted)
  co : t.air.co = s.air.co
  no2 : t.air.no2 = s.air.no2
  gasClass : t.air.gasClass = s.air.gasClass
  /-- The balancing flow stands, but for the two grounds on which it is set to 0: the link state is not JOINED, or a
CRITICAL class, an override or the assist rules fan 2 (R132, R133). -/
  balancing : t.air.balancing = if t.view.link = .joined ∧ t.air.fan2.source ≠ .critical ∧ t.air.fan2.source ≠ .vent ∧
    t.air.fan2.source ≠ .assist then s.air.balancing else 0
  overrides : t.overrides = s.overrides
  /-- The alarm flags follow the causes (R149). -/
  alarms : t.alarms = updateAlarms s.cfg.alarms.latchedModes (packFlags (alarmCauses t)) s.alarms
  meter : t.alloc.meter = s.alloc.meter
  /-- E, P and the net flow are those of the loads at their present settings (R156, R124). -/
  energised : t.alloc.energised = energisedDraw (loadList t)
  reported : t.alloc.reported = max (energisedDraw (loadList t)) s.alloc.measured
  netFlow : t.air.netFlow = fanFlow s.cfg.air.fan1.flow t.air.fan1 + fanFlow s.cfg.air.fan2.flow t.air.fan2

/-- `t` follows `s` by the forming of the draws alone (R124, R156, R54). -/
structure DrawFrame (s t : State) : Prop where
  rest : t = { s with
    alloc := { s.alloc with
      energised := energisedDraw (loadList s), reported := max (energisedDraw (loadList s)) s.alloc.measured }
    shift := { s.shift with peak := t.shift.peak }
    air := { s.air with
      netFlow := fanFlow s.cfg.air.fan1.flow s.air.fan1 + fanFlow s.cfg.air.fan2.flow s.air.fan2 } }
  peak : t.shift.peak = if t.alloc.reported = s.alloc.reported then s.shift.peak else max s.shift.peak t.alloc.reported

/-! ## What a recomputation leaves -/

/-- `t` follows `s` by an event that recomputes (R155, R157 to R161, R163): the requests are those of the demand records.
In JOINED the computed grants and the cause of CAP_EXCEEDED are those of the shed computation over the standings, and
the applied grants fall at once; where the event switches no stage there is one recomputation, and the applied grants
and the pending-increase timer are as R161 gives them from those of `s`. Outside JOINED both grants are the allowance,
the timer is stopped and the cause is false. -/
structure GrantsFormed (s t : State) : Prop where
  requests : t.alloc.requests = formRequests (loadList t) t.alloc.term
  computed : t.view.link = .joined →
    t.alloc.computed = ownGrants (shedComputation t.cfg.header.cap (standings t)) t.alloc.requests
  exceeded : t.view.link = .joined → t.alloc.capExceeded = decide (t.cfg.header.cap < reserveSum (standings t) + tierZeroDemand (standings t))
  falls : t.view.link = .joined →
    (t.alloc.applied.g1 ≤ s.alloc.applied.g1 ∧ t.alloc.applied.g2 ≤ s.alloc.applied.g2 ∧
      t.alloc.applied.g3 ≤ s.alloc.applied.g3) ∧
    (t.alloc.applied.g1 ≤ t.alloc.computed.g1 ∧ t.alloc.applied.g2 ≤ t.alloc.computed.g2 ∧
      t.alloc.applied.g3 ≤ t.alloc.computed.g3)
  moved : t.view.link = .joined → (∀ st ∈ t.heat.stages, st.since ≠ t.clock) →
    t.alloc.applied = s.alloc.applied.lesser t.alloc.computed ∧
    t.alloc.pendingDue = if t.alloc.computed.exceeds t.alloc.applied then
      some (s.alloc.pendingDue.getD (t.clock + t.cfg.header.interval)) else none
  apart : t.view.link ≠ .joined →
    t.alloc.computed = { g1 := allowance t, g2 := 0, g3 := 0 } ∧ t.alloc.applied = t.alloc.computed ∧
      t.alloc.pendingDue = none ∧ t.alloc.capExceeded = false

/-! ## Sound configuration and shape -/

/-- The ranges of the configured values that the station's rules lean on (Tables 42, 10, 16, 23 and 27, R43, R79, R92,
R105, R119, R123, R169). -/
structure ConfigOk (c : Config) : Prop where
  nCfg : 1 ≤ c.header.nCfg ∧ c.header.nCfg ≤ 32
  interval : 500 ≤ c.header.interval ∧ c.header.interval ≤ 5000 ∧ c.header.interval % 100 = 0
  cap : 100 ≤ c.header.cap ∧ c.header.cap ≤ 65535
  pageCount : c.pages.length = 4
  pages : ∀ p ∈ c.pages, p.work.length = 4 ∧ p.standby.length = 4 ∧ (∀ l ∈ p.work, l ≤ 100) ∧ (∀ l ∈ p.standby, l ≤ 100) ∧
    p.changeoverLevel ≤ 100 ∧ -400 ≤ p.occupied ∧ p.occupied ≤ 600 ∧ -400 ≤ p.unoccupied ∧ p.unoccupied ≤ 600 ∧
    p.minVent ≤ 100 ∧ p.minVent % 5 = 0 ∧ p.changeover ≤ 1800
  channels : c.lighting.channels.length = 4 ∧ ∀ k ∈ c.lighting.channels, k.rated ≤ 200
  lighting : 5 ≤ c.lighting.leadIn ∧ c.lighting.leadIn ≤ 120 ∧ 10 ≤ c.lighting.vacatingHold ∧
    c.lighting.vacatingHold ≤ 600 ∧ 1 ≤ c.lighting.fade ∧ c.lighting.fade ≤ 100
  doors : c.doors.docks.length = c.doorCount ∧ c.doorCount ≤ 8 ∧ c.doors.holdLimit ≤ 3600 ∧ c.doors.recovery ≤ 600 ∧
    (∀ w ∈ c.doors.curtains, w ≤ 500) ∧ ∀ w ∈ c.doors.docks, w ≤ 200
  limits : -400 ≤ c.heat.criticalLow ∧ c.heat.high ≤ 600 ∧ c.heat.criticalLow + c.heat.hysteresis ≤ c.heat.high ∧
    c.heat.hysteresis ∈ [0, 5, 10, 20]
  stages : c.heat.stages.length ≤ 4 ∧ c.heat.boostDelta ≤ 50 ∧ 5 ≤ c.heat.spacing ∧ c.heat.spacing ≤ 50 ∧
    ∀ k ∈ c.heat.stages, 1 ≤ k.rated ∧ k.rated ≤ 1000 ∧ 30 ≤ k.minOn ∧ k.minOn ≤ 600 ∧ 30 ≤ k.minOff ∧ k.minOff ≤ 900
  gas : ∀ g ∈ [c.air.co, c.air.no2], 1 ≤ g.action ∧ g.action ≤ g.critical ∧ g.critical ≤ g.fullScale ∧ g.band < g.action
  windows : 1 ≤ c.air.assertWindow ∧ c.air.assertWindow ≤ 16 ∧ 1 ≤ c.air.clearWindow ∧ c.air.clearWindow ≤ 16
  speeds : ∀ v ∈ [c.air.actionSpeed, c.air.assistSpeed], 5 ≤ v ∧ v ≤ 100 ∧ v % 5 = 0
  fans : ∀ f ∈ [c.air.fan1, c.air.fan2],
    f.rated ≤ 500 ∧ f.flow ≤ 500 ∧ 5 ≤ f.coast ∧ f.coast ≤ 120 ∧ 100 ≤ f.ramp ∧ f.ramp ≤ 2000
  balancing : c.air.deadband ≤ 500 ∧ c.air.relief ≤ 200 ∧ 5 ≤ c.air.stepLimit ∧ c.air.stepLimit ≤ 50
  gate : 200 ≤ c.gate.spacing ∧ c.gate.spacing ≤ 2000 ∧ 5 ≤ c.gate.zoneHold ∧ c.gate.zoneHold ≤ 300 ∧
    30 ≤ c.gate.vacancy ∧ c.gate.vacancy ≤ 1800
  meter : 1 ≤ c.meter.weight ∧ c.meter.weight ≤ 1000 ∧ 10 ≤ c.meter.creep ∧ c.meter.creep ≤ 600 ∧ c.meter.margin ≤ 500

/-- The limits of Table 23 as placed: FREEZE and OVERHEAT cannot both be active (R105). -/
def LimitsOk (s : State) : Prop := s.cfg.heat.criticalLow + s.cfg.heat.hysteresis ≤ s.cfg.heat.high

/-- The records are as many as the configuration says, on a running station. -/
structure ShapeOk (s : State) : Prop where
  entries : s.view.entries.length = 32
  zones : s.traffic.zones.length = 4
  channels : s.lighting.channels.length = 4
  pages : s.cfg.pages.length = 4
  channelConfigs : s.cfg.lighting.channels.length = 4
  doorConfigs : s.cfg.doors.docks.length = s.cfg.doorCount
  docks : s.start.running = true → s.lighting.docks.length = s.cfg.doorCount
  doors : s.start.running = true → s.doors.records.length = s.cfg.doorCount
  stages : s.start.running = true → s.heat.stages.length = s.cfg.heat.stages.length

/-! ## Line engine and peer view -/

/-- On a running station the link state is SILENT exactly while a silent cause is present, and the timebase state and
its cause agree (R36, R39, R40). -/
structure LinkOk (s : State) : Prop where
  silent : s.start.running = true → (s.view.link = .silent ↔ s.view.causes.isEmpty = false)
  timebase : s.view.timebaseLost = s.view.causes.timebase

/-- The limits of the transmit queue, at most one slot in flight and only in SEND or ABORT, a renewal of the slot's own
kind, and an empty queue in SILENT and during a start sequence (R5, R16, R17, R20, R24). -/
structure QueueOk (s : State) : Prop where
  handoffs : countKind kindHandoff s.line.queue ≤ 4
  single : ∀ k, k ≠ kindHandoff → countKind k s.line.queue ≤ 1
  flight : s.line.queue.countP Slot.inFlight ≤ 1
  grounded : s.line.engine ≠ .send → s.line.engine ≠ .abort → ∀ x ∈ s.line.queue, x.inFlight = false
  renewal : ∀ x ∈ s.line.queue, ∀ r, x.renewed = some r → kindOf r = kindOf x.content
  silent : s.view.link = .silent → s.line.queue = []
  starting : s.start.running = false → s.line.queue = [] ∧ s.line.engine = .held

/-! ## Traffic, doors, heat, alarms -/

/-- The count's range, the flag UNCERTAIN and the bay lighting state (R68, R71, R76). -/
structure TrafficOk (s : State) : Prop where
  count : s.traffic.count ≤ 15
  faulty : s.traffic.gate = .fault → s.traffic.uncertain = true
  quiet : s.traffic.gate ≠ .fault → s.traffic.count = 0 → present s.traffic = false → s.traffic.uncertain = false
  bay : s.lighting.bay = .occupied ↔ occupied s.traffic = true

/-- The open-unsealed count and boost (R101, R102). -/
structure DoorsOk (s : State) : Prop where
  count : s.doors.openUnsealed = countUnsealed s.doors.records
  boost : 0 < s.doors.openUnsealed → s.doors.boost = true
  recovery : s.doors.recoveryDue ≠ none → s.doors.boost = true ∧ s.doors.openUnsealed = 0

/-- The guards of the temperature monitor, and no stage ON while OVERHEAT is active (R105, R107, R116). -/
structure HeatOk (s : State) : Prop where
  faulty : s.heat.fault = true → s.heat.last = none ∧ s.heat.freeze = false ∧ s.heat.overheat = false
  apart : ¬(s.heat.freeze = true ∧ s.heat.overheat = true)
  cut : s.heat.overheat = true → ∀ st ∈ s.heat.stages, st.on = false

/-- A LATCHED condition that is active has its latched flag set; a COMPARATOR condition has none (R149). -/
structure AlarmsOk (s : State) : Prop where
  comparator : s.alarms.latched &&& ~~~s.cfg.alarms.latchedModes = 0
  latched : s.alarms.active &&& s.cfg.alarms.latchedModes &&& ~~~s.alarms.latched = 0

/-! ## Overrides -/

/-- A stack holds at most four entries, no two of one identity, each with a precedence of 0 to 7 (R137, R138). -/
structure StackOk (stack : List OverrideEntry) : Prop where
  room : stack.length ≤ 4
  apart : stack.Pairwise fun a b => ¬(a.source = b.source ∧ a.origin = b.origin)
  precedence : ∀ e ∈ stack, e.precedence ≤ 7

/-- The three stacks (R138). -/
structure StacksOk (s : State) : Prop where
  light : StackOk s.overrides.light
  heat : StackOk s.overrides.heat
  vent : StackOk s.overrides.vent

/-! ## Grants and outputs -/

/-- The applied grants stand at or below the computed ones, and below only while the settle delay runs (R161). -/
structure GrantsOk (s : State) : Prop where
  tier1 : s.alloc.applied.g1 ≤ s.alloc.computed.g1
  tier2 : s.alloc.applied.g2 ≤ s.alloc.computed.g2
  tier3 : s.alloc.applied.g3 ≤ s.alloc.computed.g3
  settled : s.alloc.pendingDue = none → s.alloc.applied = s.alloc.computed

/-- A channel's target is the lesser of desired and granted, and the present level does not exceed it (R84, R86). -/
def ChannelOk (c : Channel) : Prop := c.target = min c.desired c.granted ∧ c.present ≤ c.target

/-- A fan's target is the lesser of desired and granted, the present speed does not exceed it, and only a RUNNING fan
has a speed (R127, R128, R131). -/
def FanOk (f : Fan) : Prop :=
  f.target = min f.desired f.granted ∧ f.present ≤ f.target ∧ (f.state ≠ .running → f.present = 0)

/-- No output exceeds what was granted to its load (R86, R89, R100, R116, R131). -/
structure OutputsOk (s : State) : Prop where
  channels : ∀ c ∈ s.lighting.channels, ChannelOk c
  docks : ∀ d ∈ s.lighting.docks, d.output = true → d.demanded = true ∧ d.granted = true
  curtains : ∀ d ∈ s.doors.records, d.curtainOn = true → d.curtainDemanded = true ∧ d.curtainGranted = true
  stages : s.start.running = true → ∀ st ∈ s.heat.stages, st.on = true → st.granted = true
  fan1 : FanOk s.air.fan1
  fan2 : FanOk s.air.fan2

/-- Is a load's record in one of tiers 1 to 3? -/
def inBudget (l : Load) : Bool :=
  match l.demand with
  | some d => decide (d.tier ≠ 0)
  | none => false

/-- The sum of the nameplates of the loads of tiers 1 to 3 at a setting of theirs. -/
def budgetDraw (setting : Load → Nat) (loads : List Load) : Nat :=
  ((loads.filter inBudget).map fun l => nameplate l.fitting l.rated (setting l)).sum

/-- The nameplate, at their granted settings, of the loads whose records carry tier `t`. -/
def grantedDraw (t : Tier) (loads : List Load) : Nat :=
  ((loads.filter fun l => l.demand.any fun d => decide (d.tier = t)).map fun l => nameplate l.fitting l.rated l.granted).sum

/-- The budget of tier `t` of a load list as it is granted: its applied grant and what the tier above has left (R165). -/
def tierBudget (g : Grants) (loads : List Load) (t : Tier) : Nat :=
  let b2 := g.g2 + (g.g1 - grantedDraw 1 loads)
  match t with
  | 0 => 0
  | 1 => g.g1
  | 2 => b2
  | 3 => g.g3 + (b2 - grantedDraw 2 loads)

/-- A load of a tier's budget is granted the largest setting that fits what is left of it (R166). -/
def LoadFitted (left : Nat) (desired : Nat) (l : Load) : Prop :=
  let power (x : Nat) : Nat := nameplate l.fitting l.rated x
  match l.fitting with
  | .dimmable => l.granted ≤ desired ∧ power l.granted ≤ left ∧ ∀ x, x ≤ desired → power x ≤ left → x ≤ l.granted
  | .stepped => l.granted ≤ desired ∧ l.granted % 5 = 0 ∧ power l.granted ≤ left ∧
      ∀ k, 5 * k ≤ desired → power (5 * k) ≤ left → 5 * k ≤ l.granted
  | .whole => l.granted = if l.rated ≤ left then 1 else 0

/-- Every place of a load list is granted what a local realisation gives it: nothing without a record, tier 0 in full, and in
tiers 1 to 3 what fits the rest of the tier's budget that the places before it leave (R164 to R166). -/
def Fitted (g : Grants) (loads : List Load) : Prop :=
  ∀ (k : Nat) (l : Load), loads[k]? = some l →
    match l.demand with
    | none => l.granted = 0
    | some d =>
      if d.tier = 0 then l.granted = d.setting
      else LoadFitted (tierBudget g loads d.tier - grantedDraw d.tier (loads.take k)) d.setting l

/-- Every load of a running station is granted what the applied grants give it (R164 to R166). -/
def FittedOk (s : State) : Prop := s.start.running = true → Fitted s.alloc.applied (loadList s)

/-- The sum of three grants. -/
def Grants.total (g : Grants) : Nat := g.g1 + g.g2 + g.g3

/-- The own requests are those of the demand records as they stand (R155, R157). -/
def RequestsOk (s : State) : Prop :=
  s.start.running = true → s.alloc.requests = formRequests (loadList s) s.alloc.term

/-- The nameplate of the loads of tiers 1 to 3, as granted and as energised, stays within the applied grants (R165,
R167). -/
structure BudgetOk (s : State) : Prop where
  granted : s.start.running = true → budgetDraw Load.granted (loadList s) ≤ s.alloc.applied.total
  energised : s.start.running = true → budgetDraw Load.present (loadList s) ≤ s.alloc.applied.total

end Sys2Proof.Machine
end

