-- ==== Sys2Proof/WellFormed.lean ====
section
/-! DEFINITION. Which commands are well formed: operands that the event the row names can bring (assumption log 4).

The machine itself refuses none of the others: a command whose event cannot occur changes nothing (assumption log 2). -/

namespace Sys2Proof

open Machine

/-- The frame a command brings from the line: kind code, sender, payload (Table 6); nothing for a command that brings
none. -/
def Instr.frame : Instr → Option (Nat × Station × List Byte)
  | .beaconReceived sender p => some (kindBeacon, sender, p.toList)
  | .handoffReceived sender p => some (kindHandoff, sender, p.toList)
  | .shiftReceived sender p => some (kindShift, sender, p.toList)
  | .alarmReceived sender p => some (kindAlarm, sender, p.toList)
  | .replyReceived sender p => some (kindReply, sender, p)
  | .lightSet sender p | .heatHold sender p | .heatSetpoint sender p | .heatBoost sender p | .ventPurge sender p
  | .ventStop sender p | .release sender p | .alarmAck sender p | .restart sender p | .directiveDropped sender p =>
    some (kindDirective, sender, p.toList)
  | .queryStatus sender p | .queryPeer sender p | .queryShift sender p | .queryDoor sender p | .queryOverrides sender p
  | .queryLoads sender p | .queryDropped sender p => some (kindQuery, sender, p.toList)
  | .powerOnReset | .startSequenceEnd _ | .lineIdle _ | .transmitAttemptStart | .lostArbitration _ | .bitError _ | .abortEnd
  | .transmissionComplete | .frameDiscarded _ | .beaconScheduling | .entryStale _ | .entryLost _ | .listenTimerExpiry
  | .isolationTimerExpiry | .timebaseLost | .timebaseRecovered | .shiftInputChange _ _ | .changeoverTimerExpiry
  | .lockoutTimerExpiry | .gateBeamChange _ | .invalidTransition | .gateFaultClear | .presenceAsserted _
  | .presenceReleased _ | .zoneHoldExpiry _ | .vacancyCorrection | .leadInTimerExpiry | .vacatingTimerExpiry
  | .levelRiseStep _ | .manualAsserted _ | .manualReleased _ | .doorContactChange _ _ _ | .doorTrailerChange _ _ _
  | .doorHoldExpiry _ | .doorFaultClear _ | .boostRecoveryExpiry | .temperatureReading _ | .stageMinOnExpiry _
  | .stageMinOffExpiry _ | .gasSample _ _ | .coastTimerExpiry _ | .rampTimerExpiry _ | .overrideExpiry _ _ _
  | .pendingIncreaseExpiry | .meterPulse | .meterCheck | .startDelimiter | .doorSettlingEnds _ _ _
  | .openSecondsAdvance _ => none

/-- A query row carries its own record kind code, or one that names none of the six kinds (assumption log 20). -/
def queryFits (row : Nat) (p : Vector Byte 3) : Bool := decide (p[1].toNat = row) || decide (6 ≤ p[1].toNat)

/-- An override entry's identity fits its stack: MANUAL entries stand in the LIGHT stack, CHANGEOVER entries in the LIGHT
and HEAT stacks, and only a DIRECTIVE entry has an origin (R90, R52, R138). -/
def identityFits (k : StackId) (source : SourceKind) (origin : Option Station) : Bool :=
  match source with
  | .manual => k = .light && origin.isNone
  | .changeover => k ≠ .vent && origin.isNone
  | .directive => origin.isSome

/-- The check of a command's operands. -/
def Instr.wellFormed : Instr → Bool
  | .startSequenceEnd r => decide (r.image.length ≤ 256)
  | .lineIdle bits => decide (bits ≠ [])
  | .lostArbitration k => decide (k < 12)
  | .frameDiscarded bits => decide (bits ≠ [])
  | .replyReceived _ p => lengthAccepted kindReply p.length
  | .lightSet _ p => directiveKind p = some .lightSet
  | .heatHold _ p => directiveKind p = some .heatHold
  | .heatSetpoint _ p => directiveKind p = some .heatSetpoint
  | .heatBoost _ p => directiveKind p = some .heatBoost
  | .ventPurge _ p => directiveKind p = some .ventPurge
  | .ventStop _ p => directiveKind p = some .ventStop
  | .release _ p => directiveKind p = some .release
  | .alarmAck _ p => directiveKind p = some .alarmAck
  | .restart _ p => directiveKind p = some .restart
  | .queryStatus _ p => queryFits 0 p
  | .queryPeer _ p => queryFits 1 p
  | .queryShift _ p => queryFits 2 p
  | .queryDoor _ p => queryFits 3 p
  | .queryOverrides _ p => queryFits 4 p
  | .queryLoads _ p => queryFits 5 p
  | .overrideExpiry k source origin => identityFits k source origin
  | .powerOnReset | .transmitAttemptStart | .bitError _ | .abortEnd | .transmissionComplete
  | .beaconReceived _ _ | .handoffReceived _ _ | .shiftReceived _ _ | .alarmReceived _ _ | .beaconScheduling
  | .entryStale _ | .entryLost _ | .listenTimerExpiry | .isolationTimerExpiry | .timebaseLost | .timebaseRecovered
  | .shiftInputChange _ _ | .changeoverTimerExpiry | .lockoutTimerExpiry | .gateBeamChange _ | .invalidTransition
  | .gateFaultClear | .presenceAsserted _ | .presenceReleased _ | .zoneHoldExpiry _ | .vacancyCorrection
  | .leadInTimerExpiry | .vacatingTimerExpiry | .levelRiseStep _ | .manualAsserted _ | .manualReleased _
  | .doorContactChange _ _ _ | .doorTrailerChange _ _ _ | .doorHoldExpiry _ | .doorFaultClear _ | .boostRecoveryExpiry
  | .temperatureReading _ | .stageMinOnExpiry _ | .stageMinOffExpiry _ | .gasSample _ _ | .coastTimerExpiry _
  | .rampTimerExpiry _ | .pendingIncreaseExpiry | .meterPulse | .meterCheck | .startDelimiter | .directiveDropped _ _
  | .queryDropped _ _ | .doorSettlingEnds _ _ _ | .openSecondsAdvance _ => true

end Sys2Proof
end

