-- ==== Sys2Proof/Certificates/Slice0/Obligations.lean ====
section
/-! DEFINITION. The statements for the provers, in the order of the manual's chapters.

Where a statement says what an event changes, it gives the state with the event's own changes made; `EventFrame` says
what the end of the event may add to it (assumption log 19), and an equation of states says that nothing is added. -/

open Sys2Proof Sys2Proof.Machine

/-! ## The machine -/

/-- The command at the front of the queue is run with the queue's rest (assumption log 1). -/
def Obligations.StepRunsFrontCommand : Prop :=
  ∀ (c : Instr) (rest : List Instr) (s : State), s.pending = c :: rest →
    Machine.step s = exec c { s with pending := rest }

/-- On an empty queue one millisecond of the own timebase passes, and exactly the timer events that are then due are queued, each
under its own rule's condition: a timer that has run its time out, an entry's age, a schedule, a stage's minimum times, a whole
percent of a rise, a raw level that has held for its stable time. During a start sequence none is. The tick is the model's
choice (assumption log 1), and that a debounced input's change is such an event too (assumption log 11). -/
def Obligations.EmptyQueueTicks : Prop :=
  ∀ s : State, s.pending = [] → 1 ≤ s.start.config.lighting.fade →
    let cfg := s.start.config
    let now := s.clock + 1
    let passed (since : Option Nat) (ms : Nat) : Prop := ∃ m, since = some m ∧ m + ms ≤ now
    let ended (due : Option Nat) : Prop := passed due 0
    let aged (n : Fin 32) (state : EntryState) (intervals : Nat) : Prop := ∃ e b, s.view.entries[n.val]? = some e ∧
      e.state = state ∧ e.beacon = some b ∧ e.heardAt + intervals * b.interval ≤ now
    let door (d : Fin 8) (test : Door → Prop) : Prop := ∃ r, s.doors.records[d.val]? = some r ∧ test r
    let stage (k : Fin 4) (test : StageConfig → Stage → Prop) : Prop :=
      ∃ c st, cfg.heat.stages[k.val]? = some c ∧ s.heat.stages[k.val]? = some st ∧ test c st
    let fan (n : Fin 2) : Fan := if n = 0 then s.air.fan1 else s.air.fan2
    let steady (ms : Nat) (i : Debounced) (level : Bool) : Prop := i.raw = level ∧ i.since + ms ≤ now
    let first (i : Debounced) (level : Bool) : Prop := i.level = some level ∨ (i.level = none ∧ steady 500 i level)
    ∃ t, Machine.step s = .next t ∧ t = { s with clock := now, pending := t.pending } ∧
      ∀ c, c ∈ t.pending ↔ s.start.running = true ∧ match c with
        | .listenTimerExpiry => s.view.link = .listen ∧ ended s.view.listenDue
        | .isolationTimerExpiry => s.view.link = .joined ∧ 2 ≤ cfg.header.nCfg ∧ ended s.view.isolationDue
        | .changeoverTimerExpiry => ended s.shift.changeoverDue
        | .lockoutTimerExpiry => ended s.shift.lockoutDue
        | .overrideExpiry k source origin =>
          let stack : List OverrideEntry := match k with
            | .light => s.overrides.light
            | .heat => s.overrides.heat
            | .vent => s.overrides.vent
          ∃ e ∈ stack, e.source = source ∧ e.origin = origin ∧ ended e.expiry
        | .entryStale n => aged n .fresh 3
        | .entryLost n => aged n .stale 10
        | .beaconScheduling => s.view.nextBeacon ≤ now
        | .gateFaultClear => s.traffic.gate = .fault ∧ passed s.traffic.quietSince 600000
        | .zoneHoldExpiry z => ∃ x, s.traffic.zones[z.val]? = some x ∧ passed x.releasedAt (cfg.gate.zoneHold * 1000)
        | .vacancyCorrection =>
          passed s.traffic.vacancySince (if s.traffic.uncertain then cfg.gate.vacancy * 250 else cfg.gate.vacancy * 1000)
        | .leadInTimerExpiry => ended s.lighting.leadInDue
        | .vacatingTimerExpiry => ended s.lighting.vacatingDue
        | .levelRiseStep i => ∃ c l0 t0, s.lighting.channels[i.val]? = some c ∧ c.rise = some (l0, t0) ∧ c.present < c.target ∧
          t0 ≤ now ∧ (c.present + 1 - l0) * 1000 ≤ cfg.lighting.fade * (now - t0)
        | .doorHoldExpiry d => door d fun r => r.state = .openUnsealed ∧ passed r.holdSince (cfg.doors.holdLimit * 1000)
        | .doorFaultClear d => door d fun r => r.state = .fault ∧ passed r.stableSince 120000
        | .boostRecoveryExpiry => ended s.doors.recoveryDue
        | .openSecondsAdvance d => door d fun r => passed r.openMark (1000 - r.remainder)
        | .stageMinOnExpiry k => stage k fun c st => st.on = true ∧ st.demand = .holding ∧ st.since + c.minOn * 1000 ≤ now
        | .stageMinOffExpiry k => stage k fun c st =>
          st.on = false ∧ st.demand = .called ∧ st.granted = true ∧ st.since + c.minOff * 1000 ≤ now
        | .coastTimerExpiry n => (fan n).state = .coasting ∧ ended (fan n).coastDue
        | .rampTimerExpiry n => (fan n).state = .running ∧ ended (fan n).rampDue
        | .pendingIncreaseExpiry => ended s.alloc.pendingDue
        | .meterCheck => s.alloc.nextCheck ≤ now
        | .shiftInputChange pressed .stable => s.shift.input.level ≠ some pressed ∧ steady 50 s.shift.input pressed
        | .manualAsserted .stable => s.lighting.manual.level ≠ some true ∧ steady 50 s.lighting.manual true
        | .manualReleased .stable => s.lighting.manual.level ≠ some false ∧ steady 50 s.lighting.manual false
        | .doorSettlingEnds d isOpen isPresent => door d fun r =>
          r.settling = true ∧ first r.contact isOpen ∧ first r.trailer isPresent
        | .doorContactChange d isOpen .stable => door d fun r => r.contact.level ≠ some isOpen ∧ steady 500 r.contact isOpen
        | .doorTrailerChange d isPresent .stable => door d fun r =>
          r.trailer.level ≠ some isPresent ∧ steady 500 r.trailer isPresent
        | _ => False

/-- The state right after power-on reset, block by block (R24, R41, R56, R75, R91, R104, R118, R136, R153, R173, R174);
the configuration, the link state, the view entries, the inputs and the readings before the start sequence has ended are the
model's choice (assumption log 7). -/
def Obligations.ResetValues : Prop :=
  let s := State.reset
  (s.pending = [] ∧ s.start.running = false ∧ s.start.cause = .powerOn) ∧
  (s.line.engine = .held ∧ s.line.queue = [] ∧ s.line.failures = 0 ∧ s.line.lastAlarm = none ∧ s.line.lineFault = false) ∧
  (s.view.entries.length = 32 ∧ (∀ e ∈ s.view.entries, e.state = .absent ∧ e.beacon = none ∧ e.alarms = none) ∧
    s.view.sequence = 0 ∧ s.view.causes.isEmpty = true) ∧
  (s.shift.epoch = none ∧ s.shift.phase = .steady ∧ s.shift.changeoverDue = none ∧ s.shift.lockoutDue = none ∧
    s.shift.energy = 0 ∧ s.shift.peak = 0 ∧ s.shift.crossings = 0 ∧ s.shift.summary = none) ∧
  (s.traffic.gateCount = 0 ∧ s.traffic.lowerSeen = none ∧ s.traffic.count = 0 ∧ s.traffic.uncertain = false ∧
    present s.traffic = false) ∧
  (s.lighting.bay = .vacant ∧ s.lighting.leadInDue = none ∧ s.lighting.vacatingDue = none ∧
    ∀ c ∈ s.lighting.channels, c.present = 0 ∧ c.target = 0 ∧ c.rise = none) ∧
  (s.doors.openUnsealed = 0 ∧ s.doors.boost = false ∧ s.doors.recoveryDue = none) ∧
  (s.heat.last = none ∧ s.heat.fault = false ∧ s.heat.freeze = false ∧ s.heat.overheat = false) ∧
  (s.air.gasClass = .none ∧ s.air.balancing = 0 ∧ s.air.fan1.state = .coasting ∧ s.air.fan1.direction = none ∧
    s.air.fan1.present = 0 ∧ s.air.fan2.state = .coasting ∧ s.air.fan2.direction = none ∧ s.air.fan2.present = 0) ∧
  (s.overrides = { light := [], heat := [], vent := [] } ∧ s.alarms = { active := 0, latched := 0 }) ∧
  (s.alloc.computed = { g1 := 0, g2 := 0, g3 := 0 } ∧ s.alloc.applied = { g1 := 0, g2 := 0, g3 := 0 } ∧
    s.alloc.pendingDue = none ∧ s.alloc.newest = none ∧ s.alloc.previous = none ∧ s.alloc.measured = 0 ∧
    s.alloc.term = 0 ∧ s.alloc.unaccounted = false) ∧
  (lightingDuties s = [0, 0, 0, 0] ∧ dockOutputs s = [] ∧ curtainOutputs s = [] ∧ stageOutputs s = [] ∧
    fanDrive s s.air.fan1 = none ∧ fanDrive s s.air.fan2 = none ∧ attentionPin s = none)

/-- POWER_ON_RESET answers the reset state in every state; that the model's queue and clock go on is its choice
(assumption log 23). -/
def Obligations.PowerOnReset : Prop :=
  ∀ s : State, exec .powerOnReset s = .next { State.reset with pending := s.pending, clock := s.clock }

/-! ## Line engine -/

/-- LINE_IDLE: in HUNT the idle count goes up by one for each recessive line level read, is held at 12 and returns to 0 on a
dominant one, and the engine is in IDLE when it has reached 12; START_DELIMITER begins the reception of a frame in IDLE; and
FRAME_DISCARDED returns from RECEIVE to HUNT with the idle count as it stands from the last dominant bit read. Nothing else
changes (R3, R11). -/
def Obligations.ReceiverMoves : Prop :=
  let count (n : Nat) (bits : List Bool) : Nat := bits.foldl (fun n b => if b then min 12 (n + 1) else 0) n
  (∀ (s : State) (bits : List Bool), s.start.running = true → s.line.engine = .hunt →
    (∀ k, 1 ≤ k → k < bits.length → count s.line.idle (bits.take k) ≠ 12) →
    exec (.lineIdle bits) s = .next { s with line := { s.line with
      engine := if count s.line.idle bits = 12 then .idle else .hunt, idle := count s.line.idle bits } }) ∧
  (∀ s : State, s.start.running = true → s.line.engine = .idle →
    exec .startDelimiter s = .next { s with line := { s.line with
      engine := .receive, idle := 0, assembler := { bits := [], run := 1, level := false, length := none, tail := 0 } } }) ∧
  (∀ (s : State) (bits : List Bool), s.start.running = true → s.line.engine = .receive →
    receiveBits s.line.assembler bits = some .discard →
    exec (.frameDiscarded bits) s = .next { s with line := { s.line with
      engine := .hunt, idle := count s.line.idle bits, assembler := Assembler.start } })

/-- TRANSMIT_ATTEMPT_START marks the item of the lowest kind code, the earliest of its kind, in flight with its payload,
a BEACON's taken now; the engine is in SEND and the idle count at 0, as the dominant start delimiter leaves it, and nothing else
changes (R3, R5, R16). The payload is byte for byte that of its kind: a BEACON carries the fields of Table 8 as the owning
blocks hold them now (R32, Table 48), an ALARM both summaries, a HANDOFF, a SHIFT and a REPLY the fields of the queued item
(R48, R65, R152, R178, R181, Tables 46 and 49). The model's choices: the start delimiter is taken as always read back dominant
(DESIGN CHOICE, assumption log 28), and the idle count stands at 0 inside the frame until it ends (assumption log 21). -/
def Obligations.TransmitAttemptStart : Prop :=
  (∀ (s : State) (pre post : List Slot) (x : Slot), s.start.running = true → s.line.engine = .idle →
    s.view.link ≠ .silent → s.line.queue = pre ++ x :: post →
    (∀ y ∈ pre, kindOf x.content < kindOf y.content) → (∀ y ∈ post, kindOf x.content ≤ kindOf y.content) →
    exec .transmitAttemptStart s = .next { s with line := { s.line with
      engine := .send, idle := 0
      queue := pre ++ { x with
        sending := some (if x.content = .beacon then ownBeaconBytes s else bulletinBytes x.content) } :: post } }) ∧
  let b (n : Nat) : Byte := BitVec.ofNat 8 n
  let w (n : Nat) : List Byte := [b (n / 256), b n]
  let signed (i : Int) : List Byte := w (i % 65536).toNat
  let bit (flag : Bool) (n : Nat) : Nat := if flag then 2 ^ n else 0
  (∀ s : State,
    let link := match s.view.link with | .listen => 0 | .joined => 1 | .isolated => 2 | .silent => 3
    let gate := match s.traffic.gate with | .none => 0 | .ok => 1 | .fault => 2
    let gas := match s.air.gasClass with | .none => 0 | .action => 1 | .critical => 2
    let bay := match s.lighting.bay with | .vacant => 0 | .leadIn => 1 | .occupied => 2 | .vacating => 3
    ownBeaconBytes s =
      [s.view.sequence, b (s.start.config.header.interval / 100),
        b (link * 64 + bit s.shift.epoch.isSome 5 + bit (decide (s.shift.phase = .changeover)) 4 + s.shift.page.val),
        match s.shift.epoch with | some e => e | none => 0,
        b s.traffic.count, b (bit s.traffic.uncertain 7 + bit s.air.available 6 + gate * 16 + gas * 4 + bay), s.traffic.gateCount]
      ++ (match s.heat.last with | some x => signed x | none => [0x80, 0x00]) ++ signed s.air.netFlow
      ++ [b s.doors.openUnsealed] ++ w s.alloc.reported ++ w s.alloc.requests.q0 ++ w s.alloc.requests.q1
      ++ w s.alloc.requests.q2 ++ w s.alloc.requests.q3 ++ w s.alarms.active.toNat) ∧
  (∀ active latched : Half, bulletinBytes (.alarm active latched) = w active.toNat ++ w latched.toNat) ∧
  (∀ h : Handoff, bulletinBytes (.handoff h) =
    [b ((match h.direction with | .up => 0 | .down => 1) * 16 +
      (match h.speed with | .fast => 0 | .normal => 1 | .slow => 2 | .unknown => 3)), h.count] ++ w h.transit) ∧
  (∀ (epoch : Byte) (page : Fin 4), bulletinBytes (.shift epoch page) = [epoch, b page.val]) ∧
  ∀ (requester : Station) (kind index : Byte) (ok : Bool) (body : List Byte),
    bulletinBytes (.reply requester kind index ok body) = [b requester.toNat, kind, index, if ok then 0 else 1] ++ body

/-- LOST_ARBITRATION on a recessive bit of the arbitration field: the in-flight slot returns, with the content that renewed
it if any; the sender goes on as the receiver of the bits read so far, the bit it lost on read dominant, and the failure
run and everything else stay (R6, R17). -/
def Obligations.LostArbitration : Prop :=
  ∀ (s : State) (k : Nat) (pre post : List Slot) (x : Slot) (p : List Byte),
    let sent := lineBits (kindOf x.content) (BitVec.ofNat 6 s.start.strapped) p
    s.start.running = true → s.line.engine = .send → s.line.queue = pre ++ x :: post → x.sending = some p →
    (∀ y ∈ pre ++ post, y.sending = none) →
    k < arbitrationSpan (kindOf x.content) (BitVec.ofNat 6 s.start.strapped) p → sent[k]? = some true →
    ∃ t, exec (.lostArbitration k) s = .next t ∧
      t = { s with line := { s.line with
        engine := t.line.engine, idle := 0, assembler := t.line.assembler
        queue := pre ++ { content := x.renewed.getD x.content, sending := none, renewed := none } :: post } } ∧
      ((∃ a, receiveBits Assembler.start (sent.take k ++ [false]) = some (.more a) ∧ t.line.engine = .receive ∧
          t.line.assembler = a) ∨
        ((∀ a, receiveBits Assembler.start (sent.take k ++ [false]) ≠ some (.more a)) ∧ t.line.engine = .hunt ∧
          t.line.assembler = Assembler.start))

/-- BIT_ERROR in a bit of the frame in flight, read back at the other level, enters ABORT with the idle count as the bits read
left it; a recessive bit of the arbitration field is no bit error but a lost arbitration. ABORT_END below 16 returns the
in-flight slot and adds one to the failure run, and with the timebase lost it enters HELD without counting; nothing else
changes (R3, R6, R7, R21, R23). When the slot returns is the model's choice (assumption log 9). -/
def Obligations.BitErrorAndAbort : Prop :=
  (∀ (s : State) (k : Nat) (b : Bool) (pre post : List Slot) (x : Slot) (p : List Byte),
    let sent := lineBits (kindOf x.content) (BitVec.ofNat 6 s.start.strapped) p
    s.start.running = true → s.line.engine = .send → s.line.queue = pre ++ x :: post → x.sending = some p →
    (∀ y ∈ pre ++ post, y.sending = none) → sent[k]? = some b →
    (b = true → arbitrationSpan (kindOf x.content) (BitVec.ofNat 6 s.start.strapped) p ≤ k) →
    exec (.bitError k) s = .next { s with line := { s.line with
      engine := .abort, idle := (sent.take k ++ [!b]).foldl (fun n b => if b then min 12 (n + 1) else 0) 0 } }) ∧
  (∀ (s : State) (pre post : List Slot) (x : Slot), s.start.running = true → s.line.engine = .abort →
    s.view.timebaseLost = false → s.line.failures + 1 < 16 → s.line.queue = pre ++ x :: post → x.inFlight = true →
    (∀ y ∈ pre ++ post, y.sending = none) →
    exec .abortEnd s = .next { s with line := { s.line with
      engine := .hunt, idle := 0, failures := s.line.failures + 1
      queue := pre ++ { content := x.renewed.getD x.content, sending := none, renewed := none } :: post } }) ∧
  (∀ s : State, s.start.running = true → s.line.engine = .abort → s.view.timebaseLost = true →
    exec .abortEnd s = .next { s with line := { s.line with engine := .held, idle := 0 } })

/-- The line-engine reset that the sixteenth consecutive abort brings: the queue is emptied, the run is 0, the assembler is
cleared, the engine is in HUNT with the idle count at 0, LINE_FAULT is active and LISTEN and JOINED become ISOLATED; the
last-sent ALARM content and every other block's state are kept (R22, R35). -/
def Obligations.SixteenthAbortResets : Prop :=
  ∀ s : State, s.start.running = true → s.line.engine = .abort → s.view.timebaseLost = false → 16 ≤ s.line.failures + 1 →
    ∃ t, exec .abortEnd s = .next t ∧
      EventFrame s { s with
        line := { s.line with
          engine := .hunt, idle := 0, assembler := Assembler.start, queue := [], failures := 0, lineFault := true }
        view := if s.view.link = .listen ∨ s.view.link = .joined then
            { s.view with link := .isolated, listenDue := none, isolationDue := none }
          else s.view } t ∧
      t.line.lastAlarm = s.line.lastAlarm ∧ conditionSet t.alarms.active 15 = true

/-- TRANSMISSION_COMPLETE: HUNT, the run at 0, the in-flight slot gone unless it was renewed (and a renewed ALARM equal to
what was sent gone too), an ALARM's content now last sent, LINE_FAULT inactive; a station alone in its shed leaves
ISOLATED for LISTEN. Where neither LINE_FAULT nor the link state changes, nothing else does (R8, R17, R19, R35). -/
def Obligations.TransmissionComplete : Prop :=
  ∀ (s : State) (pre post : List Slot) (x : Slot) (p : List Byte),
    s.start.running = true → s.line.engine = .send → s.line.queue = pre ++ x :: post → x.sending = some p →
    (∀ y ∈ pre ++ post, y.sending = none) →
    let rejoin : Bool := decide (s.view.link = .isolated ∧ s.start.config.header.nCfg = 1)
    let u : State := { s with
      line := { s.line with
        engine := .hunt, failures := 0, lineFault := false
        idle := (lineBits (kindOf x.content) (BitVec.ofNat 6 s.start.strapped) p).foldl
          (fun n b => if b then min 12 (n + 1) else 0) 0
        queue := pre ++ (match x.renewed with
          | some r => if kindOf x.content = 0 ∧ r = x.content then []
            else [{ content := r, sending := none, renewed := none }]
          | none => []) ++ post
        lastAlarm := match x.content with
          | .alarm active latched => some (active, latched)
          | _ => s.line.lastAlarm }
      view := if rejoin then
          { s.view with
            link := .listen, listenDue := some (s.clock + 3 * s.start.config.header.interval), heard := false
            isolationDue := none }
        else s.view }
    ∃ t, exec .transmissionComplete s = .next t ∧
      (s.line.lineFault = false → rejoin = false → t = u) ∧ (s.line.lineFault = true ∨ rejoin = true → EventFrame s u t) ∧
      (s.line.lineFault = true → conditionSet t.alarms.active 15 = false)

/-- The transmit failure run: an abort that ends adds one, at 16 it brings the line-engine reset instead, a completed
transmission returns it to 0, and apart from the starts no other command touches it (R21). -/
def Obligations.TransmitFailureRun : Prop :=
  ∀ (c : Instr) (s t : State), s.start.running = true → exec c s = .next t →
    match c with
    | .abortEnd =>
      if s.line.engine = .abort ∧ s.view.timebaseLost = false then
        if s.line.failures + 1 < 16 then t.line.failures = s.line.failures + 1
        else t.line.failures = 0 ∧ t.line.engine = .hunt ∧ t.line.lineFault = true
      else t.line.failures = s.line.failures
    | .transmissionComplete =>
      t.line.failures = if s.line.engine = .send ∧ s.line.queue.any Slot.inFlight then 0 else s.line.failures
    | .powerOnReset => t.line.failures = 0
    | .restart _ _ => t.line.failures = s.line.failures ∨ (t.start.running = false ∧ t.line.failures = 0)
    | _ => t.line.failures = s.line.failures

/-- A frame as a sender stuffs it, followed by the six recessive bit times, is accepted by a receiver as that frame, for
every kind code, sender and payload of a length Table 6 accepts (R2, R4, R9, R10). -/
def Obligations.ReceiverAcceptsSender : Prop :=
  ∀ (kind : Nat) (sender : Station) (payload : List Byte), lengthAccepted kind payload.length = true →
    receiveBits Assembler.start (lineBits kind sender payload ++ List.replicate 6 true) =
      some (.accept kind sender.toNat (bitsOf payload))

/-! ## Frames from the line -/

/-- What an accepted frame does before its delivery: the engine is in HUNT with the idle count since the frame's last
dominant bit, and a frame of a configured bay station other than the own one counts as heard in LISTEN, restarts the
isolation timer in JOINED, and takes ISOLATED to LISTEN where N_cfg is 2 or more; in SILENT, and from any other sender, it has no
effect (R10, R27, R33 to R35). With ISOLATED left the active flag of its alarm condition, number 10, is cleared, and no other
flag changes (R35, R38); that it is cleared before the delivery is the model's order (assumption log 19). -/
def Obligations.ValidPeerFrame : Prop :=
  ∀ (kind : Nat) (sender : Station) (payload : List Byte) (s : State),
    let u := heard kind sender payload s
    let nCfg := s.start.config.header.nCfg
    let interval := s.start.config.header.interval
    u = { s with
      line := { s.line with
        engine := .hunt, assembler := Assembler.start
        idle := (lineBits kind sender payload ++ List.replicate 6 true).foldl
          (fun n b => if b then min 12 (n + 1) else 0) 0 }
      view := u.view, alarms := u.alarms } ∧
    (s.view.link ≠ .isolated → u.alarms = s.alarms) ∧
    (32 ≤ sender.toNat ∨ nCfg ≤ sender.toNat ∨ sender.toNat = s.start.strapped → u.view = s.view ∧ u.alarms = s.alarms) ∧
    (sender.toNat < 32 → sender.toNat < nCfg → sender.toNat ≠ s.start.strapped →
      match s.view.link with
      | .listen => u.view = { s.view with heard := true }
      | .joined => u.view = { s.view with
          isolationDue := if nCfg = 1 then none else some (s.clock + 5 * interval) }
      | .isolated =>
        (2 ≤ nCfg → u.view = { s.view with
            link := .listen, listenDue := some (s.clock + 3 * interval), heard := true, isolationDue := none } ∧
          u.alarms = { s.alarms with active := u.alarms.active } ∧
          ∀ n, n < 16 → conditionSet u.alarms.active n = (decide (n ≠ 10) && conditionSet s.alarms.active n)) ∧
        (nCfg < 2 → u.view = s.view ∧ u.alarms = s.alarms)
      | .silent => u.view = s.view)

/-- An accepted frame under the own number: whatever its kind it is dropped, DUPLICATE is raised, the link state is SILENT and
the transmit queue is empty; nothing is delivered (R15, R36, R20). -/
def Obligations.OwnNumberHeard : Prop :=
  ∀ (c : Instr) (kind : Nat) (sender : Station) (payload : List Byte) (s : State),
    c.frame = some (kind, sender, payload) → c.wellFormed = true →
    (∀ st p, c = .directiveDropped st p →
      ¬(directiveMatches s.start.config.header.group p = true ∧ directiveKind p ≠ none)) →
    (∀ st p, c = .queryDropped st p → queryTarget p ≠ s.start.strapped) →
    s.start.running = true → s.line.engine = .receive → sender.toNat = s.start.strapped →
    let u := heard kind sender payload s
    ∃ t, exec c s = .next t ∧
      EventFrame s { u with
        line := { u.line with queue := if s.view.link = .silent then s.line.queue else [] }
        view := if s.view.link = .silent then { s.view with causes := { s.view.causes with duplicate := true } }
          else { s.view with
            causes := { s.view.causes with duplicate := true }, link := .silent, listenDue := none, isolationDue := none } }
        t ∧
      conditionSet t.alarms.active 11 = true

/-- A REPLY, a directive that is dropped and a query for another station are delivered to no block: they leave only the
line engine's and the link state's change, and the end of an event where the link state changed (R12, R13, R14). A directive
matches by its match mode: EXACT where the group selector is the group code, ZONE where their upper four bits are, ALL always,
and any other mode code never; a kind code of 9 to 15 names no directive (R13, R182). -/
def Obligations.UndeliveredFrames : Prop :=
  (∀ (group : Byte) (p : Vector Byte 9),
    let mode := p[1].toNat / 16
    (mode = 0 → (directiveMatches group p = true ↔ p[0] = group)) ∧
    (mode = 1 → (directiveMatches group p = true ↔ p[0].toNat / 16 = group.toNat / 16)) ∧
    (mode = 2 → directiveMatches group p = true) ∧
    (3 ≤ mode → directiveMatches group p = false) ∧
    (directiveKind p = none ↔ 9 ≤ p[1].toNat % 16)) ∧
  (∀ p : Vector Byte 3, queryTarget p = p[0].toNat % 64) ∧
  ∀ (c : Instr) (kind : Nat) (sender : Station) (payload : List Byte) (s : State),
    ((∃ p, c = .replyReceived sender p ∧ kind = 6 ∧ payload = p) ∨
      (∃ p, c = .directiveDropped sender p ∧ kind = 3 ∧ payload = p.toList ∧
        (directiveMatches s.start.config.header.group p = false ∨ directiveKind p = none)) ∨
      (∃ p, c = .queryDropped sender p ∧ kind = 5 ∧ payload = p.toList ∧ queryTarget p ≠ s.start.strapped)) →
    s.start.running = true → s.line.engine = .receive → sender.toNat ≠ s.start.strapped →
    let u := heard kind sender payload s
    ∃ t, exec c s = .next t ∧ (u.view.link = s.view.link → t = u) ∧ (u.view.link ≠ s.view.link → EventFrame s u t)

/-- BEACON_RECEIVED from a configured bay station: its entry is FRESH with the beacon's fields and alarm summary at age 0 and
no other entry moves; its epoch and page go to the adoption test only when it declares JOINED with its epoch known and a
page up to 3, its gate fields to the traffic unit only from the lower neighbour. From any other sender the view table stays
(R27, R28, R49, R67). -/
def Obligations.BeaconReceived : Prop :=
  ∀ (s : State) (sender : Station) (p : Vector Byte 24), s.start.running = true → s.line.engine = .receive →
    sender.toNat ≠ s.start.strapped →
    let b := beaconOf p
    let u := heard 4 sender p.toList s
    let e : PeerEntry := { state := .fresh, heardAt := s.clock, beacon := some b, alarms := some (p[22] ++ p[23]) }
    let v : State := { u with view := { u.view with entries := updateAt sender.toNat (fun _ => e) s.view.entries } }
    let w : State := if h : b.link = .joined ∧ b.epochKnown = true ∧ b.page.toNat < 4 then
        adoptionTest b.epoch ⟨b.page.toNat, h.2.2⟩ v
      else v
    let gap := s.traffic.lowerSeen ≠ none ∧ s.traffic.lowerSeen ≠ some b.gateCount
    ∃ t, exec (.beaconReceived sender p) s = .next t ∧
      (sender.toNat < 32 ∧ sender.toNat < s.start.config.header.nCfg →
        EventFrame s { w with traffic := if sender.toNat + 1 = s.start.strapped then
            { s.traffic with
              uncertain := s.traffic.uncertain || decide gap || decide (b.gate = .fault), lowerSeen := some b.gateCount }
          else s.traffic } t) ∧
      (32 ≤ sender.toNat ∨ s.start.config.header.nCfg ≤ sender.toNat → t = u)

/-- The fields of a BEACON as a sender writes them are taken by a receiver as they were, for every field in its range
(Table 48, R181), and a field outside its range is taken as the row of R182 says, whatever the other bytes are. -/
def Obligations.BeaconFieldsRoundTrip : Prop :=
  (∀ p : Vector Byte 24,
    let f := beaconOf p
    let temperature := (p[7] ++ p[8]).toInt
    (p[1].toNat < 5 → f.interval = 500) ∧ (50 < p[1].toNat → f.interval = 5000) ∧
    (p[2].toNat / 64 = 3 → f.link = .isolated) ∧ f.page.toNat = p[2].toNat % 16 ∧
    (15 < p[4].toNat → f.occupancy = 15) ∧
    (p[5].toNat / 16 % 4 = 3 → f.gate = .fault) ∧ (p[5].toNat / 4 % 4 = 3 → f.gas = .critical) ∧
    (temperature < -400 ∨ 600 < temperature → f.temperature = none) ∧
    ((p[9] ++ p[10]).toInt = -32768 → f.netFlow = -32767) ∧
    (8 < p[11].toNat → f.openUnsealed = 8)) ∧
  ∀ (f : BeaconFields) (alarms : Half), f.link ≠ .silent → f.occupancy ≤ 15 → f.openUnsealed ≤ 8 →
    (∃ n, 5 ≤ n ∧ n ≤ 50 ∧ f.interval = 100 * n) → (∀ t, f.temperature = some t → -400 ≤ t ∧ t ≤ 600) →
    -32767 ≤ f.netFlow → f.netFlow ≤ 32767 → f.draw < 65536 →
    f.requests.q0 < 65536 → f.requests.q1 < 65536 → f.requests.q2 < 65536 → f.requests.q3 < 65536 →
    ∃ h : (beaconBytes f alarms).length = 24,
      beaconOf ⟨(beaconBytes f alarms).toArray, by simpa using h⟩ = f ∧
      beaconAlarms ⟨(beaconBytes f alarms).toArray, by simpa using h⟩ = alarms

/-- HANDOFF_RECEIVED: from the lower neighbour it changes the occupancy count by one, or sets UNCERTAIN where the count would
leave 0..15, checks the carried count for a gap and stores it; from any sender it can trigger the lead-in of the table of
R73 in a WORKING page; a direction other than UP and DOWN is ignored whole (R66, R68, R73, R77). -/
def Obligations.HandoffReceived : Prop :=
  ∀ (s : State) (sender : Station) (p : Vector Byte 4), s.start.running = true → s.line.engine = .receive →
    sender.toNat ≠ s.start.strapped →
    let u := heard 1 sender p.toList s
    let code := p[0].toNat
    let up := decide (code / 16 = 0)
    let next : Int := (s.traffic.count : Int) + (if up then 1 else -1)
    let gap := s.traffic.lowerSeen ≠ none ∧ s.traffic.lowerSeen ≠ some (p[1] - 1)
    let ahead : Int := if up then (s.start.strapped : Int) - ((sender.toNat : Int) + 1)
      else (sender.toNat : Int) - s.start.strapped
    let reached := (ahead = 1 ∧ code % 16 ≠ 2) ∨ (ahead = 2 ∧ code % 16 = 0)
    ∃ t, exec (.handoffReceived sender p) s = .next t ∧
      (2 ≤ code / 16 → EventFrame s u t) ∧
      (code / 16 < 2 →
        EventFrame s { u with
          traffic := if sender.toNat + 1 = s.start.strapped then
              { s.traffic with
                count := if 0 ≤ next ∧ next ≤ 15 then next.toNat else s.traffic.count
                vacancySince := if 0 ≤ next ∧ next ≤ 15 then none else s.traffic.vacancySince
                uncertain := s.traffic.uncertain || decide ¬(0 ≤ next ∧ next ≤ 15) || decide gap
                lowerSeen := some p[1] }
            else s.traffic
          lighting := if isWorking s = true ∧ reached ∧ s.lighting.bay ≠ .occupied then
              { s.lighting with
                bay := .leadIn, leadInDue := some (s.clock + s.start.config.lighting.leadIn * 1000), vacatingDue := none }
            else s.lighting } t)

/-- SHIFT_RECEIVED: a page above 3 is ignored whole; a newer epoch, or any epoch while the own one is UNKNOWN, is adopted with
its page: the accumulators roll into the summary of a known epoch and are cleared; before the changeover of a new page starts or
is off, the lighting channels take the page's levels, a fall at once, and the heat unit forms its setpoint, calls and demands
from it; and the lockout starts at 60 s (R42, R47 to R50, R52, R55, R82, R86, R111). That a LEAD_IN which the page ends is over
before the channels choose is the model's choice (DESIGN CHOICE, assumption log 19). -/
def Obligations.ShiftAdopted : Prop :=
  ∀ (s : State) (sender : Station) (p : Vector Byte 2) (h : p[1].toNat < 4), s.start.running = true →
    s.line.engine = .receive → sender.toNat ≠ s.start.strapped →
    (∀ e, s.shift.epoch = some e → 1 ≤ (p[0] - e).toNat ∧ (p[0] - e).toNat ≤ 127) →
    let u := heard 2 sender p.toList s
    let page := s.start.config.pages.getD p[1].toNat (Page.builtIn 0)
    let due := s.clock + page.changeover * 1000
    let entry (effect : Effect) : OverrideEntry :=
      { source := .changeover, origin := none, precedence := 0, effect := effect, expiry := some due }
    let paged : State := { u with
      shift := { s.shift with page := ⟨p[1].toNat, h⟩ }
      lighting := if s.lighting.bay = .leadIn ∧ page.pageClass = .idle then
          { s.lighting with bay := .vacant, leadInDue := none, vacatingDue := none }
        else s.lighting }
    ∃ t, exec (.shiftReceived sender p) s = .next t ∧
      EventFrame s { u with
        shift := { s.shift with
          epoch := some p[0], page := ⟨p[1].toNat, h⟩
          phase := if page.changeover = 0 then .steady else .changeover
          changeoverDue := if page.changeover = 0 then none else some due
          lockoutDue := some (s.clock + 60000)
          energy := 0, peak := 0, crossings := 0
          summary := match s.shift.epoch with
            | some e => some
              { epoch := e, energy := s.shift.energy, peak := s.shift.peak, crossings := s.shift.crossings,
                doors := s.doors.records.map fun d => ((gatherOpen s.clock d).cycles, (gatherOpen s.clock d).openSeconds) }
            | none => s.shift.summary }
        doors := { s.doors with records := s.doors.records.map fun d =>
          { d with cycles := 0, openSeconds := 0, remainder := 0, openMark := d.openMark.map fun _ => s.clock } }
        lighting := if p[1].toNat = s.shift.page.val then s.lighting else (reformChannels paged).lighting
        heat := if p[1].toNat = s.shift.page.val then s.heat else (reformHeat paged).heat
        overrides := if page.changeover = 0 then
            { s.overrides with
              light := s.overrides.light.filter fun e => !(e.source = .changeover && e.origin = none)
              heat := s.overrides.heat.filter fun e => !(e.source = .changeover && e.origin = none) }
          else
            { s.overrides with
              light := offerEntry (entry (.level page.changeoverLevel 0xF)) s.overrides.light
              heat := offerEntry (entry (.setpoint page.occupied)) s.overrides.heat } } t

/-- SHIFT_RECEIVED that is not adopted: with the own epoch and a lower page the page becomes the received one, whose levels the
lighting channels take, a fall at once, and from which the heat unit forms its setpoint, calls and demands, and then in
CHANGEOVER fresh entries end with the timer; any other epoch that is not newer, and a page above 3, change nothing of the shift
state (R42, R48, R49, R51, R82, R86, R111). That a LEAD_IN which the page ends is over before the channels choose is the model's
choice (DESIGN CHOICE, assumption log 19). -/
def Obligations.ShiftNotAdopted : Prop :=
  ∀ (s : State) (sender : Station) (p : Vector Byte 2) (cur : Byte), s.start.running = true →
    s.line.engine = .receive → sender.toNat ≠ s.start.strapped →
    let u := heard 2 sender p.toList s
    ∃ t, exec (.shiftReceived sender p) s = .next t ∧
      (4 ≤ p[1].toNat → EventFrame s u t) ∧
      (s.shift.epoch = some cur → p[0] ≠ cur → ¬(1 ≤ (p[0] - cur).toNat ∧ (p[0] - cur).toNat ≤ 127) → EventFrame s u t) ∧
      (s.shift.epoch = some cur → p[0] = cur → s.shift.page.val ≤ p[1].toNat → EventFrame s u t) ∧
      (∀ h : p[1].toNat < s.shift.page.val, s.shift.epoch = some cur → p[0] = cur →
        let page := s.start.config.pages.getD p[1].toNat (Page.builtIn 0)
        let entry (due : Nat) (effect : Effect) : OverrideEntry :=
          { source := .changeover, origin := none, precedence := 0, effect := effect, expiry := some due }
        let paged : State := { u with
          shift := { s.shift with page := ⟨p[1].toNat, h.trans s.shift.page.isLt⟩ }
          lighting := if s.lighting.bay = .leadIn ∧ page.pageClass = .idle then
              { s.lighting with bay := .vacant, leadInDue := none, vacatingDue := none }
            else s.lighting }
        EventFrame s { paged with
          lighting := (reformChannels paged).lighting
          heat := (reformHeat paged).heat
          overrides := match s.shift.phase, s.shift.changeoverDue with
            | .changeover, some due =>
              { s.overrides with
                light := offerEntry (entry due (.level page.changeoverLevel 0xF)) s.overrides.light
                heat := offerEntry (entry due (.setpoint page.occupied)) s.overrides.heat }
            | _, _ => s.overrides } t)

/-- ALARM_RECEIVED: a configured bay station's entry takes the active summary, and its state, age and other fields stay; an
ALARM of any other sender is not stored (R27, R30). -/
def Obligations.AlarmReceived : Prop :=
  ∀ (s : State) (sender : Station) (p : Vector Byte 4), s.start.running = true → s.line.engine = .receive →
    sender.toNat ≠ s.start.strapped →
    let u := heard 0 sender p.toList s
    ∃ t, exec (.alarmReceived sender p) s = .next t ∧
      (sender.toNat < 32 ∧ sender.toNat < s.start.config.header.nCfg →
        EventFrame s { u with view := { u.view with
          entries := updateAt sender.toNat (fun e => { e with alarms := some (p[0] ++ p[1]) }) s.view.entries } } t) ∧
      (32 ≤ sender.toNat ∨ s.start.config.header.nCfg ≤ sender.toNat → EventFrame s u t)

/-! ## Directives -/

/-- An entry offered to a stack takes the first case that applies: it replaces the one of its identity, as the latest
arrival; it takes a free place; it evicts the lowest precedence, the earliest among equals, if that is lower than its own;
otherwise it is refused. A stack keeps at most four entries, no two of one identity, and an entry above all others, as a
MANUAL one is, is always installed. The ruling entry of a stack is its highest precedence, the latest arrival among equals; an empty
stack has none (R137, R138). -/
def Obligations.OverrideStacks : Prop :=
  (∀ (e : OverrideEntry) (stack : List OverrideEntry),
    ((∃ x ∈ stack, x.source = e.source ∧ x.origin = e.origin) →
      offerEntry e stack = stack.filter (fun x => !(x.source = e.source && x.origin = e.origin)) ++ [e]) ∧
    ((∀ x ∈ stack, ¬(x.source = e.source ∧ x.origin = e.origin)) → stack.length < 4 → offerEntry e stack = stack ++ [e]) ∧
    (∀ pre w post, stack = pre ++ w :: post → (∀ x ∈ stack, ¬(x.source = e.source ∧ x.origin = e.origin)) →
      stack.length = 4 → (∀ x ∈ pre, w.precedence < x.precedence) → (∀ x ∈ post, w.precedence ≤ x.precedence) →
      stack.Pairwise (fun a b => ¬(a.source = b.source ∧ a.origin = b.origin)) →
      offerEntry e stack = if w.precedence < e.precedence then pre ++ post ++ [e] else stack) ∧
    (StackOk stack → e.precedence ≤ 7 → StackOk (offerEntry e stack)) ∧
    (StackOk stack → (∀ x ∈ stack, x.precedence < e.precedence ∨ (x.source = e.source ∧ x.origin = e.origin)) →
      e ∈ offerEntry e stack)) ∧
  (ruling [] = none) ∧
  ∀ (pre post : List OverrideEntry) (w : OverrideEntry), (∀ x ∈ pre, x.precedence ≤ w.precedence) →
    (∀ x ∈ post, x.precedence < w.precedence) → ruling (pre ++ w :: post) = some w

/-- The six directives that place an entry: a matched one offers its stack a DIRECTIVE entry with the sender as origin, the
precedence clamped to 1..6, the expiry at the end of the duration (none for 0) and the effect of its fields, each clamped;
a LIGHT_SET without a channel and a VENT_PURGE without a direction are ignored whole (R140 to R146). -/
def Obligations.PlacingDirectives : Prop :=
  ∀ (s : State) (sender : Station) (p : Vector Byte 9), s.start.running = true → s.line.engine = .receive →
    sender.toNat ≠ s.start.strapped → directiveMatches s.start.config.header.group p = true →
    let u := heard 3 sender p.toList s
    let duration := p[3].toNat * 256 + p[4].toNat
    let entry (effect : Effect) : OverrideEntry :=
      { source := .directive, origin := some sender, precedence := max 1 (min 6 p[2].toNat), effect := effect
        expiry := if duration = 0 then none else some (s.clock + duration * 1000) }
    let onLight (e : Effect) : State :=
      { u with overrides := { s.overrides with light := offerEntry (entry e) s.overrides.light } }
    let onHeat (e : Effect) : State :=
      { u with overrides := { s.overrides with heat := offerEntry (entry e) s.overrides.heat } }
    let onVent (e : Effect) : State :=
      { u with overrides := { s.overrides with vent := offerEntry (entry e) s.overrides.vent } }
    (p[1].toNat % 16 = 0 → ∃ t, exec (.lightSet sender p) s = .next t ∧
      EventFrame s (if p[6].toNat % 16 = 0 then u
        else onLight (.level (min 100 p[5].toNat) (BitVec.ofNat 4 p[6].toNat))) t) ∧
    (p[1].toNat % 16 = 1 → ∃ t, exec (.heatHold sender p) s = .next t ∧ EventFrame s (onHeat .hold) t) ∧
    (p[1].toNat % 16 = 2 → ∃ t, exec (.heatSetpoint sender p) s = .next t ∧
      EventFrame s (onHeat (.setpoint (max (-400) (min 600 (p[5] ++ p[6]).toInt)))) t) ∧
    (p[1].toNat % 16 = 3 → ∃ t, exec (.heatBoost sender p) s = .next t ∧
      EventFrame s (onHeat (.boost (min 100 p[5].toNat))) t) ∧
    (p[1].toNat % 16 = 4 → ∃ t, exec (.ventPurge sender p) s = .next t ∧
      EventFrame s (if p[5].toNat = 0 then onVent (.purge .supply (min 100 p[6].toNat / 5 * 5))
        else if p[5].toNat = 1 then onVent (.purge .exhaust (min 100 p[6].toNat / 5 * 5)) else u) t) ∧
    (p[1].toNat % 16 = 5 → ∃ t, exec (.ventStop sender p) s = .next t ∧ EventFrame s (onVent .stop) t)

/-- RELEASE removes, from each stack its mask names, the DIRECTIVE entries of its sender, or all of them with the all flag;
ALARM_ACK clears the latched flag of every inactive condition (R147, R150). At the end of an event the active flags are the
sixteen causes of Table 37, and the latched flag of a LATCHED condition is set as its active flag becomes set and stays, while
that of a COMPARATOR condition is held clear (R149). -/
def Obligations.ReleaseAndAcknowledge : Prop :=
  (∀ (s : State) (latchedModes : Half) (was : Alarms),
    let a := updateAlarms latchedModes (packFlags (alarmCauses s)) was
    let active (n : Nat) : Prop := conditionSet a.active n = true
    (active 0 ↔ s.air.gasClass = .critical) ∧ (active 1 ↔ s.air.gasClass ≠ .none) ∧ (active 2 ↔ s.heat.freeze = true) ∧
    (active 3 ↔ s.heat.overheat = true) ∧ (active 4 ↔ ∃ d ∈ s.doors.records, d.state = .held) ∧
    (active 5 ↔ ∃ d ∈ s.doors.records, d.state = .fault) ∧ (active 6 ↔ s.traffic.gate = .fault) ∧
    (active 7 ↔ s.heat.fault = true ∨ s.air.co.fault = true ∨ s.air.no2.fault = true) ∧
    (active 8 ↔ s.alloc.unaccounted = true) ∧ (active 9 ↔ s.alloc.capExceeded = true) ∧
    (active 10 ↔ s.view.link = .isolated) ∧ (active 11 ↔ s.view.causes.duplicate = true) ∧
    (active 12 ↔ s.view.timebaseLost = true) ∧
    (active 13 ↔ s.view.causes.defaulted = true ∨ s.view.causes.strapRange = true) ∧
    (active 14 ↔ ∃ k ∈ s.start.config.lighting.channels, k.mode = .offForced ∨ k.mode = .fullForced) ∧
    (active 15 ↔ s.line.lineFault = true) ∧
    ∀ n, n < 16 → conditionSet a.latched n = (conditionSet latchedModes n &&
      (conditionSet was.latched n || (conditionSet a.active n && !conditionSet was.active n)))) ∧
  ∀ (s : State) (sender : Station) (p : Vector Byte 9), s.start.running = true → s.line.engine = .receive →
    sender.toNat ≠ s.start.strapped → directiveMatches s.start.config.header.group p = true →
    let u := heard 3 sender p.toList s
    let keeps (e : OverrideEntry) : Bool :=
      decide ¬(e.source = .directive ∧ (p[5].getLsbD 7 = true ∨ e.origin = some sender))
    let released (bit : Nat) (stack : List OverrideEntry) : List OverrideEntry :=
      if p[5].getLsbD bit then stack.filter keeps else stack
    (p[1].toNat % 16 = 6 → ∃ t, exec (.release sender p) s = .next t ∧
      EventFrame s { u with overrides :=
        { light := released 0 s.overrides.light, heat := released 1 s.overrides.heat,
          vent := released 2 s.overrides.vent } } t) ∧
    (p[1].toNat % 16 = 7 → ∃ t, exec (.alarmAck sender p) s = .next t ∧
      EventFrame s { u with alarms := { u.alarms with latched := u.alarms.latched &&& u.alarms.active } } t)

/-- RESTART: a start sequence is under way with every output off, a lighting duty 100 for a FOLLOW_INVERTED channel and 0 for
any other, and exactly what Table 44 names is kept: the epoch, the page, the accumulators with the last-shift summary, the
doors' accumulators, the pulse stamps and the timebase state (R148, R174, R177, R41, R56, R104, R173). DESIGN CHOICE,
assumption log 7: until the sequence ends the strapped number and the configuration stand, and the link state, the view
entries, the gate status, the last reading, the assembler, the idle count, the inputs' raw levels and what else has no value
yet are those of the blocks' initial records. -/
def Obligations.RestartKeeps : Prop :=
  ∀ (s : State) (sender : Station) (p : Vector Byte 9), s.start.running = true → s.line.engine = .receive →
    sender.toNat ≠ s.start.strapped → directiveMatches s.start.config.header.group p = true → p[1].toNat % 16 = 8 →
    ∃ t, exec (.restart sender p) s = .next t ∧
      t.pending = s.pending ∧ t.clock = s.clock ∧
      t.start = { s.start with running := false, cause := .restart } ∧
      t.line = Line.initial ∧
      t.view = { View.initial with
        causes := { duplicate := false, timebase := s.view.causes.timebase, defaulted := false, strapRange := false }
        timebaseLost := s.view.timebaseLost, timebaseMark := s.view.timebaseMark } ∧
      t.shift = { s.shift with
        phase := .steady, changeoverDue := none, lockoutDue := none, input := { level := none, raw := false, since := 0 } } ∧
      t.traffic = Traffic.initial ∧ t.lighting = Lighting.initial ∧ t.heat = Heat.initial ∧ t.air = Air.initial ∧
      t.overrides = { light := [], heat := [], vent := [] } ∧ t.alarms = { active := 0, latched := 0 } ∧
      t.alloc = { Alloc.initial with newest := s.alloc.newest, previous := s.alloc.previous } ∧
      t.doors.records.map (fun d => (d.state, d.settling, d.cycles, d.openSeconds, d.remainder)) =
        s.doors.records.map (fun d => (DoorState.closed, true, d.cycles, (gatherOpen s.clock d).openSeconds,
          (gatherOpen s.clock d).remainder)) ∧
      t.doors.openUnsealed = 0 ∧ t.doors.boost = false ∧ t.doors.recoveryDue = none ∧
      lightingDuties t = (s.start.config.lighting.channels.take 4).map (fun k => if k.mode = .followInverted then 100 else 0) ∧
      dockOutputs t = [] ∧ (∀ on ∈ curtainOutputs t, on = false) ∧ stageOutputs t = [] ∧
      fanDrive t t.air.fan1 = none ∧ fanDrive t t.air.fan2 = none ∧ attentionPin t = none

/-! ## Queries -/

/-- The six queries for the own number: a REPLY with the requester, the record kind, the index, a status and a body is offered
to the transmit queue, where it replaces a waiting REPLY and renews one in flight; in SILENT none is inserted. Status OK
comes with the record of Table 45, and NO_SUCH_RECORD with an empty body where there is none: STATUS has index 0, PEER 0 to
31, SHIFT 0 and a configured door, DOOR a configured door, OVERRIDES 0 to 2, LOADS 0 and a place of the load list, and a
record kind of 6 to 255 has none (R14, R17, R20, R178). Which of the six rows carries such a kind is the model's choice
(assumption log 20). -/
def Obligations.QueriesAnswered : Prop :=
  (∀ (s : State) (kind index : Nat), s.start.running = true → ShapeOk s →
    let doors := s.start.config.doorCount
    ((recordBody kind index s).isSome = true ↔
      (kind = 0 ∧ index = 0) ∨ (kind = 1 ∧ index ≤ 31) ∨ (kind = 2 ∧ index ≤ doors) ∨
        (kind = 3 ∧ 1 ≤ index ∧ index ≤ doors) ∨ (kind = 4 ∧ index ≤ 2) ∨
        (kind = 5 ∧ index ≤ 6 + 2 * doors + s.start.config.heat.stages.length))) ∧
  ∀ (c : Instr) (s : State) (sender : Station) (p : Vector Byte 3), s.start.running = true → s.line.engine = .receive →
    sender.toNat ≠ s.start.strapped → p[0].toNat % 64 = s.start.strapped →
    ((c = .queryStatus sender p ∧ (p[1].toNat = 0 ∨ 6 ≤ p[1].toNat)) ∨
      (c = .queryPeer sender p ∧ (p[1].toNat = 1 ∨ 6 ≤ p[1].toNat)) ∨
      (c = .queryShift sender p ∧ (p[1].toNat = 2 ∨ 6 ≤ p[1].toNat)) ∨
      (c = .queryDoor sender p ∧ (p[1].toNat = 3 ∨ 6 ≤ p[1].toNat)) ∨
      (c = .queryOverrides sender p ∧ (p[1].toNat = 4 ∨ 6 ≤ p[1].toNat)) ∨
      (c = .queryLoads sender p ∧ (p[1].toNat = 5 ∨ 6 ≤ p[1].toNat))) →
    let u := heard 5 sender p.toList s
    let record := recordBody p[1].toNat p[2].toNat u
    let reply : Bulletin := .reply sender p[1] p[2] record.isSome (record.getD [])
    let queue : List Slot :=
      if u.view.link = .silent then u.line.queue
      else if ∃ x ∈ u.line.queue, kindOf x.content = 6 then
        u.line.queue.map fun x =>
          if kindOf x.content = 6 then
            if x.sending = none then { x with content := reply } else { x with renewed := some reply }
          else x
      else u.line.queue ++ [{ content := reply, sending := none, renewed := none }]
    let v : State := { u with line := { u.line with queue := queue } }
    ∃ t, exec c s = .next t ∧ (u.view.link = s.view.link → t = v) ∧ (u.view.link ≠ s.view.link → EventFrame s v t)

/-- Every REPLY that a query is answered with has a payload length the line accepts, 4 to 48 bytes (R179, Table 6), in every state
whose override stacks keep their limit; and its body, after the requester, kind, index and status, is that of Tables 50 and
51, byte for byte (R179, R180). The model's reading of the tables: an unknown epoch is sent as 0 (assumption log 13), a
place of the load list has seven bytes for every kind of load (log 14), seconds are rounded toward zero (log 15). -/
def Obligations.RepliesFit : Prop :=
  (∀ (s : State) (sender : Station) (p : Vector Byte 3), StacksOk s →
    lengthAccepted kindReply (bulletinBytes (answerTo sender p s)).length = true) ∧
  ∀ s : State,
    let b (n : Nat) : Byte := BitVec.ofNat 8 n
    let w (n : Nat) : List Byte := [b (n / 256), b n]
    let wide (n : Nat) : List Byte := w (n / 65536) ++ w n
    let signed (i : Int) : List Byte := w (i % 65536).toNat
    let bit (flag : Bool) (n : Nat) : Nat := if flag then 2 ^ n else 0
    let age (t : Nat) : Nat := (s.clock - t) / 1000
    let link := match s.view.link with | .listen => 0 | .joined => 1 | .isolated => 2 | .silent => 3
    let k := s.view.causes
    let temperature := match s.heat.last with | some t => signed t | none => [0x80, 0x00]
    let gate := match s.traffic.gate with | .none => 0 | .ok => 1 | .fault => 2
    let gas := match s.air.gasClass with | .none => 0 | .action => 1 | .critical => 2
    let bay := match s.lighting.bay with | .vacant => 0 | .leadIn => 1 | .occupied => 2 | .vacating => 3
    let entry (e : PeerEntry) : Nat := bit e.alarms.isSome 7 +
      (match e.state with | .absent => 0 | .fresh => 1 | .stale => 2 | .lost => 3 | .self => 4)
    let input (level : Option Bool) : Nat := match level with | some false => 0 | some true => 1 | none => 3
    let override (e : OverrideEntry) : List Byte :=
      [match e.source with | .changeover => 0 | .directive => 1 | .manual => 2,
        match e.origin with | some o => b o.toNat | none => 0xFF, b e.precedence]
      ++ (match e.effect with
        | .level percent channels => [0, b percent, b channels.toNat, 0]
        | .setpoint t => 1 :: signed t ++ [0]
        | .boost delta => [2, b delta, 0, 0]
        | .hold => [3, 0, 0, 0]
        | .purge dir speed => [4, if dir = .supply then 0 else 1, b speed, 0]
        | .stop => [5, 0, 0, 0])
      ++ (match e.expiry with
        | some t => b ((t - s.clock) / 1000 / 65536) :: w ((t - s.clock) / 1000)
        | none => [0xFF, 0xFF, 0xFF])
    recordBody 0 0 s = some (
      [b (bit (decide (s.start.cause = .restart)) 7 + match s.start.outcome with
          | .good => 0 | .noAnswer => 1 | .sum => 2 | .format => 3 | .strapRange => 4),
        b s.start.strapped, b s.start.config.header.nCfg,
        b (link * 64 + bit k.duplicate 5 + bit k.timebase 4 + bit k.defaulted 3 + bit k.strapRange 2 +
          bit s.view.timebaseLost 0),
        s.shift.epoch.getD 0, b (bit s.shift.epoch.isSome 5 + bit (decide (s.shift.phase = .changeover)) 4 + s.shift.page.val),
        b s.traffic.count, b (bit s.traffic.uncertain 7 + gate * 16 + gas * 4 + bay)]
      ++ temperature ++ w s.alarms.active.toNat ++ w s.alarms.latched.toNat) ∧
    (∀ n, n < 32 → recordBody 1 n s = some (
      if s.start.config.header.nCfg ≤ n then [0]
      else if n = s.start.strapped then [0x84, 0, 0] ++ ownBeaconBytes s
      else
        let e := s.view.entries.getD n PeerEntry.empty
        match e.beacon with
        | some f => [b (entry e)] ++ w (min 65535 (s.clock - e.heardAt)) ++ beaconBytes f (e.alarms.getD 0)
        | none => [b (entry e)] ++ (match e.alarms with | some a => w a.toNat | none => []))) ∧
    recordBody 2 0 s = some (wide s.shift.energy ++ w s.shift.peak ++ w s.shift.crossings ++
      match s.shift.summary with
      | some m => [1, m.epoch] ++ wide m.energy ++ w m.peak ++ w m.crossings
      | none => [0]) ∧
    (∀ (n : Nat) (d : Door), s.doors.records[n]? = some d →
      recordBody 2 (n + 1) s = some (w d.cycles ++ wide d.openSeconds ++
        match s.shift.summary.bind fun m => m.doors[n]? with
        | some past => [1] ++ w past.1 ++ wide past.2
        | none => [0]) ∧
      ∀ dock, s.lighting.docks[n]? = some dock → recordBody 3 (n + 1) s = some (
        [b (bit d.settling 7 + match d.state with
            | .closed => 0 | .openSealed => 1 | .openUnsealed => 2 | .held => 3 | .fault => 4),
          b (input d.contact.level * 64 + input d.trailer.level * 16)]
        ++ (match d.openSince with | some t => wide (age t) | none => [0xFF, 0xFF, 0xFF, 0xFF])
        ++ (match d.holdSince with | some t => w (age t) | none => [0xFF, 0xFF])
        ++ [b d.chatter.length, match d.stableSince with | some t => b (age t) | none => 0xFF,
          b (bit d.curtainDemanded 7 + bit d.curtainGranted 6 + bit d.curtainOn 5 + bit dock.output 4)]
        ++ w d.cycles ++ wide d.openSeconds)) ∧
    recordBody 4 0 s = some (b s.overrides.light.length :: s.overrides.light.flatMap override) ∧
    recordBody 4 1 s = some (b s.overrides.heat.length :: s.overrides.heat.flatMap override) ∧
    recordBody 4 2 s = some (b s.overrides.vent.length :: s.overrides.vent.flatMap override) ∧
    recordBody 5 0 s = some (
      w s.alloc.computed.g1 ++ w s.alloc.computed.g2 ++ w s.alloc.computed.g3 ++ w s.alloc.applied.g1 ++ w s.alloc.applied.g2
      ++ w s.alloc.applied.g3 ++ [if s.alloc.pendingDue = none then 0 else 1] ++ w s.alloc.requests.q0
      ++ w s.alloc.requests.q1 ++ w s.alloc.requests.q2 ++ w s.alloc.requests.q3 ++ w s.alloc.energised ++ w s.alloc.reported
      ++ w s.alloc.measured ++ w s.alloc.term ++ signed s.heat.setpoint
      ++ [match s.heat.source with | .occupied => 0 | .unoccupied => 1 | .override => 2] ++ signed s.heat.effective) ∧
    (s.start.running = true → ShapeOk s →
      let doors := s.start.config.doorCount
      let place (kind : Byte) (record : Option (Tier × Nat)) (granted present source state : Nat) : List Byte :=
        [kind, match record with | some r => b (128 + r.1.val) | none => 0, match record with | some r => b r.2 | none => 0,
          b granted, b present, b source, b state]
      let whole (flag : Bool) : Nat := if flag then 1 else 0
      let fan (f : Fan) : List Byte :=
        place 2 (if f.desired = 0 then none else f.tier.map fun t => (t, f.desired)) f.granted f.present
          (match f.source with
            | .none => 0 | .critical => 1 | .action => 2 | .vent => 3 | .assist => 4 | .minimum => 5 | .balancing => 6)
          (bit (decide (f.requested = .exhaust)) 7
            + (match f.state with | .stopped => 0 | .running => 1 | .coasting => 2) * 16
            + (match f.direction with | some .supply => 0 | some .exhaust => 1 | none => 2) * 4)
      (∀ (i : Nat) (c : Channel), s.lighting.channels[i]? = some c →
        recordBody 5 (1 + i) s = some (place 0 (c.tier.map fun t => (t, c.desired)) c.granted c.present 0 0)) ∧
      (∀ (i : Nat) (d : DockLight), s.lighting.docks[i]? = some d →
        recordBody 5 (5 + i) s =
          some (place 1 (if d.demanded then some (1, 1) else none) (whole d.granted) (whole d.output) 0 0)) ∧
      recordBody 5 (5 + doors) s = some (fan s.air.fan1) ∧ recordBody 5 (6 + doors) s = some (fan s.air.fan2) ∧
      (∀ (i : Nat) (d : Door), s.doors.records[i]? = some d →
        recordBody 5 (7 + doors + i) s = some (
          place 3 (if d.curtainDemanded then some (1, 1) else none) (whole d.curtainGranted) (whole d.curtainOn) 0 0)) ∧
      ∀ (i : Nat) (st : Stage), s.heat.stages[i]? = some st →
        recordBody 5 (7 + 2 * doors + i) s = some (
          place 4 (if st.demand = .none then none else st.tier.map fun t => (t, 1)) (whole st.granted) (whole st.on)
            (match st.demand with | .none => 0 | .called => 1 | .holding => 2) 0))

/-! ## Transmit queue -/

/-- A bulletin offered to the transmit queue: in SILENT it is not inserted; a SHIFT, BEACON or REPLY replaces the waiting one
of its kind, renews the one in flight, or joins the queue; a HANDOFF joins up to four, and at four removes the oldest not
in flight; an ALARM renews one in flight, and otherwise, where it equals the last one sent, is not queued and withdraws a
queued one (R17 to R20). -/
def Obligations.QueueInsertion : Prop :=
  ∀ (b : Bulletin) (s : State),
    let q := s.line.queue
    let item : Slot := { content := b, sending := none, renewed := none }
    let taken (x : Slot) : Slot :=
      if x.sending = none then { x with content := b } else { x with renewed := some b }
    let withQueue (q : List Slot) : State := { s with line := { s.line with queue := q } }
    let single := kindOf b = 2 ∨ kindOf b = 4 ∨ kindOf b = 6
    let repeated := ∃ active latched, b = .alarm active latched ∧ s.line.lastAlarm = some (active, latched)
    (s.view.link = .silent → offer b s = s) ∧
    (s.view.link ≠ .silent → single ∨ (kindOf b = 0 ∧ ¬repeated) → (∀ x ∈ q, kindOf x.content ≠ kindOf b) →
      offer b s = withQueue (q ++ [item])) ∧
    (∀ pre x post, q = pre ++ x :: post → (∀ y ∈ pre ++ post, kindOf y.content ≠ kindOf b) →
      kindOf x.content = kindOf b → s.view.link ≠ .silent →
      (single ∨ (kindOf b = 0 ∧ (x.sending ≠ none ∨ ¬repeated)) → offer b s = withQueue (pre ++ taken x :: post)) ∧
      (x.sending = none → repeated → offer b s = withQueue (pre ++ post))) ∧
    (s.view.link ≠ .silent → repeated → (∀ x ∈ q, kindOf x.content ≠ 0) → offer b s = s) ∧
    (s.view.link ≠ .silent → kindOf b = 1 → countKind 1 q < 4 → offer b s = withQueue (q ++ [item])) ∧
    (∀ pre x post, q = pre ++ x :: post → (∀ y ∈ pre, kindOf y.content = 1 → y.sending ≠ none) →
      kindOf x.content = 1 → x.sending = none → s.view.link ≠ .silent → kindOf b = 1 → countKind 1 q = 4 →
      offer b s = withQueue (pre ++ post ++ [item]))

/-! ## Starts -/

/-- The start outcome and the configured values: NO_ANSWER below 256 bytes, then SUM, then FORMAT, and on a GOOD image every value
from its bytes of Table 52, one out of its range as its owning chapter takes it (R43, R58, R69, R70, R76, R77, R79, R85, R92, R105,
R119, R123, R132, R169, Table 42), with STRAP_RANGE where the strapped number is N_cfg or above; otherwise the built-in defaults
of Table 43 (R175, R176). -/
def Obligations.StartOutcomes : Prop :=
  ∀ (image : List Byte) (strapped : Nat),
    let at8 (i : Nat) : Nat := (image.getD i 0).toNat
    let at16 (i : Nat) : Nat := at8 i * 256 + at8 (i + 1)
    let sum := ((image.take 254).map BitVec.toNat).sum % 65536
    let nCfg := max 1 (min 32 (at8 1))
    let temperature (i : Nat) : Int := max (-400) (min 600 (if at16 i < 32768 then (at16 i : Int) else (at16 i : Int) - 65536))
    let gas (fullScale action critical band : Nat) : GasConfig :=
      let threshold := max 1 (min fullScale action)
      { fullScale := fullScale, action := threshold, critical := max threshold (min fullScale critical)
        band := min (threshold - 1) band }
    let fan (i : Nat) : FanConfig :=
      { rated := min 500 (at16 i), flow := min 500 (at16 (i + 2)), coast := max 5 (min 120 (at8 (i + 4)))
        ramp := max 100 (min 2000 (at16 (i + 5))) }
    (image.length < 256 → startOutcome image strapped = .noAnswer ∧ configFor image = Config.builtIn) ∧
    (256 ≤ image.length → sum ≠ at16 254 → startOutcome image strapped = .sum ∧ configFor image = Config.builtIn) ∧
    (256 ≤ image.length → sum = at16 254 → at8 0 ≠ 0x21 →
      startOutcome image strapped = .format ∧ configFor image = Config.builtIn) ∧
    (256 ≤ image.length → sum = at16 254 → at8 0 = 0x21 →
      startOutcome image strapped = (if nCfg ≤ strapped then .strapRange else .good) ∧
      configFor image = {
        header := {
          nCfg := nCfg, group := image.getD 2 0, startPage := ⟨min 3 (at8 3), by omega⟩
          interval := max 500 (min 5000 (at16 4 / 100 * 100)), cap := max 100 (at16 6) }
        pages := (List.range 4).map fun n =>
          let i := 8 + 18 * n
          { pageClass := if at8 i = 1 then .idle else .working
            work := (List.range 4).map fun k => min 100 (at8 (i + 1 + k))
            standby := (List.range 4).map fun k => min 100 (at8 (i + 5 + k))
            changeoverLevel := min 100 (at8 (i + 9))
            occupied := temperature (i + 10), unoccupied := temperature (i + 12)
            minVent := min 100 (at8 (i + 14) / 5 * 5)
            changeover := min 1800 (at16 (i + 15))
            next := ⟨min 3 (at8 (i + 17)), by omega⟩ }
        lighting := {
          channels := (List.range 4).map fun k =>
            { rated := min 200 (at8 (80 + 2 * k))
              mode := if at8 (81 + 2 * k) = 0 then .offForced else if at8 (81 + 2 * k) = 2 then .followInverted
                else if at8 (81 + 2 * k) = 3 then .fullForced else .follow }
          leadIn := max 5 (min 120 (at8 88)), vacatingHold := max 10 (min 600 (at16 89)), fade := max 1 (min 100 (at8 91)) }
        doors := {
          holdLimit := min 3600 (at16 93), recovery := min 600 (at16 95)
          curtains := (List.range (min 8 (at8 92))).map fun d => min 500 (at16 (97 + 2 * d))
          docks := (List.range (min 8 (at8 92))).map fun d => min 200 (at8 (113 + d)) }
        heat :=
          let h := if at8 184 = 0 ∨ at8 184 = 5 ∨ at8 184 = 20 then at8 184 else 10
          let low := temperature 180
          let high := temperature 182
          { criticalLow := if low ≤ high - h then low else max (-400) (high - h)
            high := if low ≤ high - h then high else max (-400 + h) high
            hysteresis := h, boostDelta := min 50 (at8 185), spacing := max 5 (min 50 (at8 186))
            stages := (List.range (min 4 (at8 121))).map fun k =>
              { rated := max 1 (min 1000 (at16 (122 + 6 * k))), minOn := max 30 (min 600 (at16 (124 + 6 * k)))
                minOff := max 30 (min 900 (at16 (126 + 6 * k))) } }
        air := {
          co := gas 500 (at16 167) (at16 169) (at16 171), no2 := gas 200 (at8 173) (at8 174) (at8 175)
          assertWindow := max 1 (min 16 (at8 176)), clearWindow := max 1 (min 16 (at8 177))
          actionSpeed := max 5 (min 100 (at8 178 / 5 * 5)), assistSpeed := max 5 (min 100 (at8 179 / 5 * 5))
          fan1 := fan 146, fan2 := fan 153
          deadband := min 500 (at16 187), relief := min 200 (at8 189), stepLimit := max 5 (min 50 (at8 190)) }
        gate := {
          present := decide (at8 160 ≠ 0), spacing := max 200 (min 2000 (at16 161))
          zoneHold := max 5 (min 300 (at16 163)), vacancy := max 30 (min 1800 (at16 165)) }
        meter := { weight := max 1 (min 1000 (at16 191)), creep := max 10 (min 600 (at16 193)), margin := min 500 (at16 195) }
        alarms := {
          latchedModes := BitVec.ofNat 16 (at16 197), annunciate := BitVec.ofNat 16 (at16 199)
          assertedHigh := decide (at8 201 ≠ 0) } }) ∧
    (configFor image).isolatedShare = (configFor image).header.cap / (configFor image).header.nCfg ∧
    (Config.builtIn.header = { nCfg := 1, group := 0, startPage := 0, interval := 1000, cap := 100 } ∧
      Config.builtIn.isolatedShare = 100 ∧ Config.builtIn.doorCount = 0 ∧ Config.builtIn.heat.stages = [] ∧
      Config.builtIn.gate.present = false ∧
      (∀ k ∈ Config.builtIn.lighting.channels, k.mode = .follow ∧ k.rated = 0) ∧
      (∀ p ∈ Config.builtIn.pages, p.work = [100, 100, 100, 100] ∧ p.standby = [100, 100, 100, 100]) ∧
      Config.builtIn.air.fan1.rated = 0 ∧ Config.builtIn.air.fan1.flow = 0 ∧ Config.builtIn.air.fan2.rated = 0 ∧
      Config.builtIn.air.fan2.flow = 0 ∧ Config.builtIn.alarms = { latchedModes := 0xFFFF, annunciate := 0xFFFF, assertedHigh := true })

/-- Whatever the setting memory answers, every configured value lies in its range (Tables 10, 16, 23, 27 and 42, R43, R79,
R92, R105, R119, R123, R169). -/
def Obligations.ConfigurationInRange : Prop := ∀ image : List Byte, ConfigOk (configFor image)

/-- The end of a start sequence: the straps, outcome and configuration are taken, the silent causes found, every block has
its starting state with its first samples, the heater stages their first calls and demands, and the end of the event with
its recomputation follows; the epoch, the accumulators and the pulse stamps stand, the page too after a restart (R24, R31,
R36, R41, R45, R56, R75, R91, R93, R104, R106 to R109, R111 to R113, R118, R120 to R122, R136, R153, R163, R173, R174).
CONFIG_DEFAULTED and FORCED_OUTPUT are active as the outcome and the channels' modes say (R36, R80, R149). That the MANUAL level
found counts as the first debounced one is the model's choice (assumption log 10). -/
def Obligations.StartSequenceEnd : Prop :=
  ∀ (r : StartReading) (s : State), s.start.running = false →
    let c := configFor r.image
    let own := r.straps.toNat
    let outcome := startOutcome r.image own
    let lost := s.view.timebaseLost
    let faulty : Bool := decide (outcome = .noAnswer ∨ outcome = .sum ∨ outcome = .format)
    let quiet : Bool := lost || faulty || decide (outcome = .strapRange)
    let entry (p : Nat) : OverrideEntry :=
      { source := .manual, origin := none, precedence := p, effect := .level 100 0xF, expiry := none }
    let fan (k : FanConfig) : Fan := { Fan.fresh with coastDue := some (s.clock + k.coast * 1000) }
    let start := if s.start.cause = .powerOn then c.header.startPage else s.shift.page
    let page := c.pages.getD start.val (Page.builtIn 0)
    let reading : Option Int := match r.temperature with
      | some x => if -400 ≤ x ∧ x ≤ 600 then some x else none
      | none => none
    let freeze : Bool := match reading with
      | some x => decide (x < c.heat.criticalLow)
      | none => false
    let overheat : Bool := match reading with
      | some x => decide (c.heat.high < x)
      | none => false
    let call (k : Nat) : Bool := match reading with
      | some x => decide ((k * c.heat.spacing : Nat) < page.unoccupied - x)
      | none => false
    let tier (k : Nat) : Option Tier :=
      if reading = none then if page.pageClass = .working ∧ k = 0 then some 2 else none
      else if overheat then none
      else if freeze = true ∧ k = 0 then some 0
      else if call k then some 3 else none
    let level (threshold n : Nat) : GasLevel :=
      if threshold ≤ n then (if c.air.assertWindow ≤ 1 then ⟨true, 0⟩ else ⟨false, 1⟩) else ⟨false, 0⟩
    let channel (k : GasConfig) (sample : Option Nat) : GasChannel :=
      match sample with
      | some n => if n ≤ k.fullScale then
          { last := .value n, fault := false, clearRun := 0, action := level k.action n, critical := level k.critical n
            nextSample := s.clock + 500 }
        else { last := .faulty, fault := true, clearRun := 0, action := ⟨false, 0⟩, critical := ⟨false, 0⟩
               nextSample := s.clock + 500 }
      | none => { last := .faulty, fault := true, clearRun := 0, action := ⟨false, 0⟩, critical := ⟨false, 0⟩
                  nextSample := s.clock + 500 }
    let co := channel c.air.co r.co
    let no2 := channel c.air.no2 r.no2
    ∃ u t, exec (.startSequenceEnd r) s = .next t ∧ EventFrame u u t ∧ GrantsFormed u t ∧
      (conditionSet t.alarms.active 13 = true ↔ faulty = true ∨ outcome = .strapRange) ∧
      (conditionSet t.alarms.active 14 = true ↔ ∃ k ∈ c.lighting.channels, k.mode = .offForced ∨ k.mode = .fullForced) ∧
      u.pending = s.pending ∧ u.clock = s.clock ∧
      u.start = { running := true, strapped := own, outcome := outcome, cause := s.start.cause, config := c, endedAt := s.clock } ∧
      u.line = { Line.initial with engine := if lost then .held else .hunt } ∧
      u.view = { s.view with
        entries := (List.range 32).map fun n =>
          if n = own ∧ n < c.header.nCfg then { state := .self, heardAt := 0, beacon := none, alarms := none }
          else { state := .absent, heardAt := 0, beacon := none, alarms := none }
        sequence := 0, nextBeacon := s.clock + c.header.interval + 25 * own
        link := if quiet then .silent else .listen
        causes := { duplicate := false, timebase := lost, defaulted := faulty, strapRange := decide (outcome = .strapRange) }
        listenDue := if quiet then none else some (s.clock + 3 * c.header.interval), heard := false, isolationDue := none
        timebaseLost := lost } ∧
      u.shift = { s.shift with
        page := start, phase := .steady, changeoverDue := none, lockoutDue := none
        input := { level := none, raw := r.shift, since := s.clock } } ∧
      (u.traffic.gate = if c.gate.present then .ok else .none) ∧ u.traffic.count = 0 ∧ u.traffic.uncertain = false ∧
      u.traffic.gateCount = 0 ∧ u.traffic.lowerSeen = none ∧ u.traffic.position = 0 ∧ u.traffic.invalid = [] ∧
      u.traffic.beamA = (c.gate.present && r.beamA) ∧ u.traffic.beamB = (c.gate.present && r.beamB) ∧
      (u.traffic.tracking = decide (c.gate.present = true ∧ r.beamA = false ∧ r.beamB = false)) ∧
      u.traffic.zones = r.presence.toList.map (fun a => { asserted := a, releasedAt := none }) ∧
      u.lighting = { Lighting.initial with
        docks := List.replicate c.doorCount DockLight.off
        manual := { level := some r.manual, raw := r.manual, since := s.clock } } ∧
      (u.doors.records.length = c.doorCount ∧ u.doors.openUnsealed = 0 ∧ u.doors.boost = false ∧ u.doors.recoveryDue = none ∧
        ∀ (i : Nat) (d : Door), u.doors.records[i]? = some d →
          d = freshDoor s.clock (r.contacts.toList.getD i false) (r.trailers.toList.getD i false) s.doors.records[i]? ∧
            d.settling = true ∧ d.state = .closed) ∧
      u.heat = {
        last := reading, fault := decide (reading = none), freeze := freeze, overheat := overheat
        setpoint := page.unoccupied, source := .unoccupied, effective := page.unoccupied
        stages := (List.range c.heat.stages.length).map fun k =>
          { on := false, since := s.clock, call := call k, demand := if tier k = none then .none else .called
            tier := tier k, granted := false }
        nextReading := s.clock + 1000 } ∧
      (u.air.co = co ∧ u.air.no2 = no2 ∧
        u.air.gasClass = (if co.critical.asserted = true ∨ no2.critical.asserted = true then .critical
          else if co.action.asserted = true ∨ co.fault = true ∨ no2.action.asserted = true ∨ no2.fault = true then .action
          else .none) ∧
        u.air.fan1 = fan c.air.fan1 ∧ u.air.fan2 = fan c.air.fan2 ∧ u.air.balancing = 0) ∧
      u.overrides = { light := if r.manual then [entry 7] else [], heat := [], vent := [] } ∧
      u.alarms = { active := 0, latched := 0 } ∧
      u.alloc = { Alloc.initial with
        newest := s.alloc.newest, previous := s.alloc.previous, nextCheck := s.clock + 1000 }

/-- Outside the starts no command touches the start block: the strapped number and the configuration stand until the next
start sequence; and while one is under way only its end, a power-on reset and the two timebase events act (R174). -/
def Obligations.StartsAlone : Prop :=
  ∀ (c : Instr) (s t : State), exec c s = .next t → c ≠ .powerOnReset → (∀ r, c ≠ .startSequenceEnd r) →
    ((∀ st p, c ≠ .restart st p) → t.start = s.start) ∧
    (∀ st p, c = .restart st p → t.start = s.start ∨ t.start = { s.start with running := false, cause := .restart }) ∧
    (s.start.running = false → c ≠ .timebaseLost → c ≠ .timebaseRecovered → t = s)

/-! ## Peer view -/

/-- BEACON_SCHEDULING: the schedule moves on by one interval; outside SILENT the sequence advances and a BEACON is offered; in
JOINED with balance-available set a balancing step is made (R31, R133): within the deadband, which the open doors widen, it
leaves the balancing flow; otherwise it adds the own share −F_net / m of the correction, rounded toward zero and clamped to
the step limit, and clamps the sum to the rated flow, so that the flow moves against the shed's net flow. The end of
the event leaves that flow where balancing or no source has fan 2 (R132). It counts the own entry and each configured peer's
FRESH or STALE one, with what its last beacon carried; an ABSENT or LOST one does not count. -/
def Obligations.BeaconScheduling : Prop :=
  (∀ s : State, s.start.running = true → s.view.nextBeacon ≤ s.clock →
    let interval := s.start.config.header.interval
    ∃ t, exec .beaconScheduling s = .next t ∧
      (s.view.link = .silent → EventFrame s { s with view := { s.view with nextBeacon := s.view.nextBeacon + interval } } t) ∧
      (s.view.link ≠ .silent → EventFrame s { s with
        view := { s.view with nextBeacon := s.view.nextBeacon + interval, sequence := s.view.sequence + 1 }
        line := (offer .beacon s).line
        air := if s.view.link = .joined ∧ s.air.available = true then
            { s.air with balancing := balanceStep s.start.config.air (balanceViews s) s.air.balancing }
          else s.air } t)) ∧
  (∀ s : State, balanceViews s = (List.range s.start.config.header.nCfg).flatMap fun n =>
    if n = s.start.strapped then
      [{ netFlow := s.air.netFlow, openUnsealed := s.doors.openUnsealed, available := s.air.available }]
    else match s.view.entries[n]? with
      | none => []
      | some e =>
        let carried : List BalanceView := match e.beacon with
          | some b => [{ netFlow := b.netFlow, openUnsealed := b.openUnsealed, available := b.available }]
          | none => []
        match e.state with
        | .fresh => carried
        | .stale => carried
        | .lost => []
        | .absent => []
        | .self => []) ∧
  ∀ (c : AirConfig) (views : List BalanceView) (b : Int),
    let net := (views.map BalanceView.netFlow).sum
    let deadband : Int := ((c.deadband + (views.map BalanceView.openUnsealed).sum * c.relief : Nat) : Int)
    let moved := balanceStep c views b
    let rated : Int := c.fan2.flow
    let limit : Int := (c.stepLimit * c.fan2.flow / 100 : Nat)
    let m := views.countP fun v => v.available
    (-deadband ≤ net → net ≤ deadband → moved = b) ∧
    (net < -deadband ∨ deadband < net →
      moved = max (-rated) (min rated (b + max (-limit) (min limit ((-net).tdiv m))))) ∧
    (-(c.fan2.flow : Int) ≤ b → b ≤ c.fan2.flow → -(c.fan2.flow : Int) ≤ moved ∧ moved ≤ c.fan2.flow ∧
      moved - b ≤ (c.stepLimit * c.fan2.flow / 100 : Nat) ∧ b - moved ≤ (c.stepLimit * c.fan2.flow / 100 : Nat) ∧
      (deadband < net → moved ≤ b) ∧ (net < -deadband → b ≤ moved))

/-- ENTRY_STALE and ENTRY_LOST: a FRESH entry is STALE after 3 of its declared intervals, a STALE one LOST after 10, with
everything it holds; the loss of the lower neighbour's entry sets UNCERTAIN (R29, R67). -/
def Obligations.EntryAgeing : Prop :=
  ∀ (s : State) (n : Fin 32) (e : PeerEntry) (b : BeaconFields), s.start.running = true →
    s.view.entries[n.val]? = some e → e.beacon = some b →
    (e.state = .fresh → e.heardAt + 3 * b.interval ≤ s.clock →
      ∃ t, exec (.entryStale n) s = .next t ∧
        EventFrame s { s with view := { s.view with
          entries := updateAt n.val (fun x => { x with state := .stale }) s.view.entries } } t) ∧
    (e.state = .stale → e.heardAt + 10 * b.interval ≤ s.clock →
      ∃ t, exec (.entryLost n) s = .next t ∧
        EventFrame s { s with
          view := { s.view with entries := updateAt n.val (fun x => { x with state := .lost }) s.view.entries }
          traffic := if n.val + 1 = s.start.strapped then { s.traffic with uncertain := true } else s.traffic } t)

/-- LISTEN_TIMER_EXPIRY leads to JOINED where a valid peer frame was heard or N_cfg is 1, with the isolation timer of 5
intervals unless N_cfg is 1, and to ISOLATED otherwise; ISOLATION_TIMER_EXPIRY leads from JOINED to ISOLATED
(R33, R34, R35). -/
def Obligations.LinkTimers : Prop :=
  ∀ (s : State) (due : Nat), s.start.running = true → due ≤ s.clock →
    let nCfg := s.start.config.header.nCfg
    let isolated : State := { s with view := { s.view with link := .isolated, listenDue := none, isolationDue := none } }
    (s.view.link = .listen → s.view.listenDue = some due → ∃ t, exec .listenTimerExpiry s = .next t ∧
      (s.view.heard = true ∨ nCfg = 1 → EventFrame s { s with view := { s.view with
        link := .joined, listenDue := none
        isolationDue := if nCfg = 1 then none else some (s.clock + 5 * s.start.config.header.interval) } } t) ∧
      (s.view.heard = false → nCfg ≠ 1 → EventFrame s isolated t ∧ conditionSet t.alarms.active 10 = true)) ∧
    (s.view.link = .joined → 2 ≤ nCfg → s.view.isolationDue = some due →
      ∃ t, exec .isolationTimerExpiry s = .next t ∧ EventFrame s isolated t ∧ conditionSet t.alarms.active 10 = true)

/-- TIMEBASE_LOST adds the cause TIMEBASE, which makes a station SILENT with its queue emptied; the line engine aborts what it
sends or is held, and a passage under way is no longer clean. TIMEBASE_RECOVERED, 100 ms or more after the last loss, takes
the cause away, releases the line engine and, with no cause left, enters LISTEN. During a start sequence only the timebase
state and the cause are written (R23, R36, R39, R40, R60, R174). The model's choices: the 100 ms are judged, and a renewed gap
within them leaves a passage clean, as assumption log 24 says; and the idle count is 0 from SEND and stands as it is from every
other state into HELD, where R3 lets it follow the line (assumption log 21). -/
def Obligations.TimebaseState : Prop :=
  (∀ s : State, s.view.timebaseLost = true →
    exec .timebaseLost s = .next { s with view := { s.view with timebaseMark := s.clock } }) ∧
  (∀ s : State, s.view.timebaseLost = false → s.start.running = false →
    exec .timebaseLost s = .next { s with view := { s.view with
      timebaseLost := true, timebaseMark := s.clock, causes := { s.view.causes with timebase := true } } }) ∧
  (∀ s : State, s.view.timebaseLost = false → s.start.running = true →
    ∃ t, exec .timebaseLost s = .next t ∧ conditionSet t.alarms.active 12 = true ∧
      EventFrame s { s with
        line := { s.line with
          engine := match s.line.engine with
            | .send => .abort
            | .abort => .abort
            | _ => .held
          idle := if s.line.engine = .send then 0 else s.line.idle
          assembler := if s.line.engine = .receive then Assembler.start else s.line.assembler
          queue := if s.view.link = .silent then s.line.queue else [] }
        view := { s.view with
          timebaseLost := true, timebaseMark := s.clock, causes := { s.view.causes with timebase := true }
          link := .silent
          listenDue := if s.view.link = .silent then s.view.listenDue else none
          isolationDue := if s.view.link = .silent then s.view.isolationDue else none }
        traffic := { s.traffic with clean := s.traffic.clean && decide (s.traffic.first = none) } } t) ∧
  (∀ s : State, s.view.timebaseLost = true → s.view.timebaseMark + 100 ≤ s.clock → s.start.running = false →
    exec .timebaseRecovered s = .next { s with view := { s.view with
      timebaseLost := false, causes := { s.view.causes with timebase := false } } }) ∧
  ∀ s : State, s.view.timebaseLost = true → s.view.timebaseMark + 100 ≤ s.clock → s.start.running = true →
    let rest : SilentCauses := { s.view.causes with timebase := false }
    ∃ t, exec .timebaseRecovered s = .next t ∧
      EventFrame s { s with
        line := { s.line with
          engine := if s.line.engine = .held then .hunt else s.line.engine
          idle := if s.line.engine = .held then 0 else s.line.idle }
        view := if rest.isEmpty = true ∧ s.view.link = .silent then
            { s.view with
              timebaseLost := false, causes := rest, link := .listen
              listenDue := some (s.clock + 3 * s.start.config.header.interval), heard := false, isolationDue := none }
          else { s.view with timebaseLost := false, causes := rest } } t

/-! ## Shifts -/

/-- SHIFT_INPUT_CHANGE: a change of the raw level starts the stable time again and does nothing else; a raw level that has
held for 50 ms becomes the debounced one. The first debounced level and a release are only stored; a press outside lockout
forms the epoch one above, or 1 from UNKNOWN, adopts it with the next page, starts the lockout and offers a SHIFT; within
lockout it is ignored (R45, R46, R47). That a change is one command at the raw level and one at the stable time is the
model's reading (assumption log 11). -/
def Obligations.ShiftPress : Prop :=
  ∀ (s : State) (pressed : Bool), s.start.running = true →
    (s.shift.input.raw ≠ pressed → exec (.shiftInputChange pressed .raw) s = .next { s with shift := { s.shift with
      input := { s.shift.input with raw := pressed, since := s.clock } } }) ∧
    (s.shift.input.raw = pressed → s.shift.input.since + 50 ≤ s.clock → s.shift.input.level ≠ some pressed →
    let u : State := { s with shift := { s.shift with input := { s.shift.input with level := some pressed } } }
    let e : Byte := match s.shift.epoch with
      | some x => x + 1
      | none => 1
    let page := (s.start.config.pages.getD s.shift.page.val (Page.builtIn 0)).next
    ∃ t, exec (.shiftInputChange pressed .stable) s = .next t ∧
      (pressed = false ∨ s.shift.input.level = none → t = u) ∧
      (pressed = true → s.shift.input.level = some false → s.shift.lockoutDue ≠ none → EventFrame s u t) ∧
      (pressed = true → s.shift.input.level = some false → s.shift.lockoutDue = none →
        EventFrame s (offer (.shift e page) (adopt e page u)) t ∧
        t.shift.epoch = some e ∧ t.shift.page = page ∧ t.shift.lockoutDue = some (s.clock + 60000)))

/-- The changeover timer's expiry makes the phase STEADY, the lockout's only stops it, the lead-in and vacating timers' expiry
makes the bay VACANT, and an override entry's expiry removes it from its stack (R47, R53, R76, R77, R139). Where another
command that moves the bay waits at the instant of an expiry of the lead-in or vacating timer (a HANDOFF that triggers the
lead-in, a presence input, a beam that makes the bay occupied), that one is taken first and the expiry does nothing: the
model's choice among the orders R78 allows (assumption log 30). -/
def Obligations.TimersExpire : Prop :=
  ∀ (s : State) (due : Nat), s.start.running = true → due ≤ s.clock →
    let vacant : State := { s with lighting := { s.lighting with bay := .vacant, leadInDue := none, vacatingDue := none } }
    (s.shift.changeoverDue = some due → ∃ t, exec .changeoverTimerExpiry s = .next t ∧
      EventFrame s { s with shift := { s.shift with phase := .steady, changeoverDue := none } } t) ∧
    (s.shift.lockoutDue = some due →
      exec .lockoutTimerExpiry s = .next { s with shift := { s.shift with lockoutDue := none } }) ∧
    (s.lighting.leadInDue = some due →
      (bayMoveWaits s = false → ∃ t, exec .leadInTimerExpiry s = .next t ∧ EventFrame s vacant t) ∧
      (bayMoveWaits s = true → exec .leadInTimerExpiry s = .next s)) ∧
    (s.lighting.vacatingDue = some due →
      (bayMoveWaits s = false → ∃ t, exec .vacatingTimerExpiry s = .next t ∧ EventFrame s vacant t) ∧
      (bayMoveWaits s = true → exec .vacatingTimerExpiry s = .next s)) ∧
    ((∀ c ∈ s.pending, (∀ sender p, c ≠ .handoffReceived sender p) ∧ (∀ z, c ≠ .presenceAsserted z) ∧
      ∀ beam, c ≠ .gateBeamChange beam) → bayMoveWaits s = false) ∧
    (s.lighting.leadInDue = some due ∨ s.lighting.vacatingDue = some due → ∀ c ∈ s.pending,
      (∃ (z : Fin 4) (x : Zone), c = .presenceAsserted z ∧ s.traffic.zones[z.val]? = some x ∧ x.asserted = false) ∨
      (∃ (sender : Station) (p : Vector Byte 4), c = .handoffReceived sender p ∧ s.line.engine = .receive ∧
        sender.toNat ≠ s.start.strapped ∧ p[0].toNat / 16 < 2 ∧ isWorking s = true ∧ s.lighting.bay ≠ .occupied ∧
        1 ≤ s.start.config.lighting.leadIn ∧
        let ahead : Int := if p[0].toNat / 16 = 0 then (s.start.strapped : Int) - ((sender.toNat : Int) + 1)
          else (sender.toNat : Int) - s.start.strapped
        (ahead = 1 ∧ p[0].toNat % 16 ≠ 2) ∨ (ahead = 2 ∧ p[0].toNat % 16 = 0)) ∨
      (c = .gateBeamChange .a ∧ s.traffic.gate = .ok ∧ s.traffic.tracking = true ∧ s.traffic.beamA = true ∧
        s.traffic.beamB = false ∧ s.traffic.position = -3 ∧ s.traffic.count < 15) → bayMoveWaits s = true) ∧
    ∀ (k : StackId) (x : OverrideEntry), x.expiry = some due →
      let without (named : StackId) (l : List OverrideEntry) : List OverrideEntry :=
        if k = named then l.filter fun y => decide ¬(y.source = x.source ∧ y.origin = x.origin) else l
      (x ∈ match k with
        | .light => s.overrides.light
        | .heat => s.overrides.heat
        | .vent => s.overrides.vent) →
      ∃ t, exec (.overrideExpiry k x.source x.origin) s = .next t ∧
        EventFrame s { s with overrides :=
          { light := without .light s.overrides.light, heat := without .heat s.overrides.heat,
            vent := without .vent s.overrides.vent } } t

/-! ## Traffic gate and occupancy -/

/-- GATE_BEAM_CHANGE that does not end a passage: in TRACKING the position moves by one step of Figure 6, with the stamps and
the clean mark of R60; in WAITING it moves nothing but enters TRACKING at (0,0); in FAULT it moves nothing (R59, R60, R63). -/
def Obligations.GateBeamStep : Prop :=
  ∀ (s : State) (beam : Beam), s.start.running = true → s.traffic.gate ≠ .none →
    let g := s.traffic
    let a := if beam = .a then !g.beamA else g.beamA
    let b := if beam = .b then !g.beamB else g.beamB
    let p : Int := g.position + (if decide (beam = .a) = decide (g.beamA = g.beamB) then 1 else -1)
    let held : Traffic := { g with beamA := a, beamB := b }
    ∃ t, exec (.gateBeamChange beam) s = .next t ∧
      (g.gate = .ok → g.tracking = true → a = true ∨ b = true →
        EventFrame s { s with traffic := { held with
          position := p
          first := if g.position = 0 then some s.clock else g.first
          second := if g.position = 0 then none
            else if p.natAbs = 2 ∧ g.second = none then some s.clock else g.second
          clean := if g.position = 0 then true
            else if (g.position.natAbs = 2 ∧ p.natAbs = 1) ∨ (g.position.natAbs = 3 ∧ p.natAbs = 2) then false
            else g.clean } } t) ∧
      (g.gate = .ok → g.tracking = false → a = true ∨ b = true → EventFrame s { s with traffic := held } t) ∧
      (g.gate = .ok → g.tracking = false → a = false → b = false →
        EventFrame s { s with traffic := { held with tracking := true, position := 0, first := none, second := none } } t) ∧
      (g.gate = .fault → EventFrame s { s with traffic := held } t)

/-- GATE_BEAM_CHANGE that ends a passage: at +4 or −4 a crossing, which advances both counts, offers a HANDOFF with its speed
class and transit time, and changes the occupancy count by −1 UP and +1 DOWN, or sets UNCERTAIN where the count would leave
0..15; at 0 a back-out, which counts nothing (R59, R60, R61, R64, R65, R68). -/
def Obligations.GateCrossing : Prop :=
  ∀ (s : State) (beam : Beam), s.start.running = true → s.traffic.gate = .ok → s.traffic.tracking = true →
    let g := s.traffic
    let ended : Traffic := { g with beamA := false, beamB := false, position := 0, first := none, second := none }
    let crossed (dir : Travel) (change : Int) : State :=
      let transit : Option Nat := match g.clean, g.first, g.second with
        | true, some x, some y => some (min 65535 (y - x))
        | _, _, _ => none
      let speed : SpeedClass := match transit with
        | some t => if 5 * t < 2 * s.start.config.gate.spacing then .fast
          else if 2 * s.start.config.gate.spacing < t then .slow else .normal
        | none => .unknown
      let next : Int := (g.count : Int) + change
      { s with
        traffic := { ended with
          gateCount := g.gateCount + 1
          count := if 0 ≤ next ∧ next ≤ 15 then next.toNat else g.count
          vacancySince := if 0 ≤ next ∧ next ≤ 15 then none else g.vacancySince
          uncertain := g.uncertain || decide ¬(0 ≤ next ∧ next ≤ 15) }
        shift := { s.shift with crossings := min 65535 (s.shift.crossings + 1) }
        line := (offer (.handoff { direction := dir, speed := speed, count := g.gateCount + 1, transit := transit.getD 0 })
          s).line }
    ∃ t, exec (.gateBeamChange beam) s = .next t ∧
      (beam = .b → g.beamA = false → g.beamB = true → g.position = 3 → EventFrame s (crossed .up (-1)) t) ∧
      (beam = .a → g.beamA = true → g.beamB = false → g.position = -3 → EventFrame s (crossed .down 1) t) ∧
      (beam = .a → g.beamA = true → g.beamB = false → g.position = 1 → EventFrame s { s with traffic := ended } t) ∧
      (beam = .b → g.beamA = false → g.beamB = true → g.position = -1 → EventFrame s { s with traffic := ended } t)

/-- INVALID_TRANSITION: both beams change, the passage is lost, and the third within 60 s puts the gate into FAULT with
UNCERTAIN set; in FAULT it starts the quiet time again. GATE_FAULT_CLEAR after 600 s of it returns the gate to OK with the
decoder waiting, or tracking at (0,0) (R59, R62, R63). -/
def Obligations.GateFaults : Prop :=
  ∀ s : State, s.start.running = true →
    let g := s.traffic
    let flipped : Traffic := { g with beamA := !g.beamA, beamB := !g.beamB }
    let recent := g.invalid.filter fun e => decide (s.clock - e ≤ 60000)
    (g.gate = .ok → ∃ t, exec .invalidTransition s = .next t ∧
      (recent.length < 2 → EventFrame s { s with traffic := { flipped with
        tracking := decide (g.beamA = true ∧ g.beamB = true), position := 0, first := none, second := none
        invalid := recent ++ [s.clock] } } t) ∧
      (2 ≤ recent.length → conditionSet t.alarms.active 6 = true ∧
        EventFrame s { s with traffic := { flipped with
          gate := .fault, uncertain := true, quietSince := some s.clock, tracking := false, position := 0, first := none
          second := none, invalid := [] } } t)) ∧
    (g.gate = .fault → ∃ t, exec .invalidTransition s = .next t ∧
      EventFrame s { s with traffic := { flipped with quietSince := some s.clock } } t) ∧
    (∀ q, g.gate = .fault → g.quietSince = some q → q + 600000 ≤ s.clock →
      ∃ t, exec .gateFaultClear s = .next t ∧ conditionSet t.alarms.active 6 = false ∧
        EventFrame s { s with traffic := { g with
          gate := .ok, quietSince := none, invalid := [], position := 0, first := none, second := none
          tracking := decide (g.beamA = false ∧ g.beamB = false) } } t)

/-- PRESENCE_ASSERTED makes its zone active and stops its timer; PRESENCE_RELEASED starts the timer and changes nothing else;
ZONE_HOLD_EXPIRY ends the zone's activity; VACANCY_CORRECTION, at V or at a quarter of it while UNCERTAIN is set, sets the
count to 0 (R69, R70). -/
def Obligations.PresenceAndVacancy : Prop :=
  ∀ s : State, s.start.running = true →
    (∀ (z : Fin 4) (x : Zone), s.traffic.zones[z.val]? = some x →
      let onZone (y : Zone) : State :=
        { s with traffic := { s.traffic with zones := updateAt z.val (fun _ => y) s.traffic.zones } }
      (x.asserted = false → ∃ t, exec (.presenceAsserted z) s = .next t ∧
        EventFrame s (onZone { asserted := true, releasedAt := none }) t) ∧
      (x.asserted = true →
        exec (.presenceReleased z) s = .next (onZone { asserted := false, releasedAt := some s.clock })) ∧
      (∀ r, x.releasedAt = some r → r + s.start.config.gate.zoneHold * 1000 ≤ s.clock →
        ∃ t, exec (.zoneHoldExpiry z) s = .next t ∧ EventFrame s (onZone { x with releasedAt := none }) t)) ∧
    (∀ v, s.traffic.vacancySince = some v →
      v + (if s.traffic.uncertain then s.start.config.gate.vacancy * 250 else s.start.config.gate.vacancy * 1000) ≤ s.clock →
      ∃ t, exec .vacancyCorrection s = .next t ∧
        EventFrame s { s with traffic := { s.traffic with count := 0, vacancySince := none } } t)

/-! ## Lighting -/

/-- MANUAL_ASSERTED offers the LIGHT stack an entry of precedence 7 at 100 % for all channels without expiry, and
MANUAL_RELEASED removes it; a change of the raw level starts the stable time again and does nothing else, and a raw level
that has held for 50 ms becomes the debounced one (R90). That a change is one command at the raw level and one at the
stable time is the model's reading (assumption log 11). -/
def Obligations.ManualInput : Prop :=
  ∀ (s : State) (level : Bool), s.start.running = true →
    (s.lighting.manual.raw ≠ level → exec (if level then .manualAsserted .raw else .manualReleased .raw) s =
      .next { s with lighting := { s.lighting with manual := { s.lighting.manual with raw := level, since := s.clock } } }) ∧
    (s.lighting.manual.raw = level → s.lighting.manual.since + 50 ≤ s.clock → s.lighting.manual.level ≠ some level →
    let u (light : List OverrideEntry) : State := { s with
      lighting := { s.lighting with manual := { s.lighting.manual with level := some level } }
      overrides := { s.overrides with light := light } }
    (level = true → ∃ t, exec (.manualAsserted .stable) s = .next t ∧
      EventFrame s (u (offerEntry
        { source := .manual, origin := none, precedence := 7, effect := .level 100 0xF, expiry := none } s.overrides.light)) t) ∧
    (level = false → ∃ t, exec (.manualReleased .stable) s = .next t ∧
      EventFrame s (u (s.overrides.light.filter fun e => decide ¬(e.source = .manual ∧ e.origin = none))) t))

/-- LEVEL_RISE_STEP takes a rising channel to the level the fade rate gives for the time since the rise began, never above its
target, and ends the rise there; COAST_TIMER_EXPIRY stops a fan whose target is 0 and starts any other one in its requested
direction at one step of 5; RAMP_TIMER_EXPIRY takes a running fan one step of 5 further (R85, R129, R130). At a new desired
or granted setting a channel falls at once or begins its rise from the level it has, and a rise under way goes on (R84 to
R86); a STOPPED fan starts, a RUNNING one coasts from speed 0 for its coast time or takes the new speed, and a COASTING one
runs on only in its own direction (R127, R128, R130). That this holds of a fan too which its coast timer's expiry made RUNNING at
the same instant, where R129 also says otherwise, is the model's choice (DESIGN CHOICE, assumption log 31). A change that is
reported to the lighting unit within an event has every channel choose its level and tier by its mode and its row of Table 17 and
follow them so under the grant it holds, and nothing else (R42, R80, R82). -/
def Obligations.FadeCoastAndRamp : Prop :=
  (∀ (now : Nat) (c : Channel),
    let target := min c.desired c.granted
    (target ≤ c.present → trackChannel now c = { c with target := target, present := target, rise := none }) ∧
    (c.present < target → c.rise = none →
      trackChannel now c = { c with target := target, rise := some (c.present, now) }) ∧
    (c.present < target → c.rise ≠ none → trackChannel now c = { c with target := target })) ∧
  (∀ (now : Nat) (k : FanConfig) (f : Fan),
    let target := min f.desired f.granted
    let aimed : Fan := { f with target := target }
    let rises (p : Nat) (x : Fan) : Fan := { x with
      present := min target p, rampDue := if min target p < target then some (now + k.ramp) else none }
    let starts : Fan := rises 5 { aimed with state := .running, direction := some f.requested, coastDue := none }
    (f.state = .stopped → driveFan now k f = if 0 < target then starts else aimed) ∧
    (f.state = .coasting → driveFan now k f = if 0 < target ∧ f.direction = some f.requested then starts else aimed) ∧
    (f.state = .running → target = 0 ∨ f.direction ≠ some f.requested →
      driveFan now k f =
        { aimed with state := .coasting, present := 0, rampDue := none, coastDue := some (now + k.coast * 1000) }) ∧
    (f.state = .running → 0 < target → f.direction = some f.requested →
      (target ≤ f.present → driveFan now k f = { aimed with present := target, rampDue := none }) ∧
      (f.present < target → f.rampDue = none → driveFan now k f = rises (f.present + 5) aimed) ∧
      (f.present < target → f.rampDue ≠ none → driveFan now k f = aimed))) ∧
  (∀ s : State,
    let channels := (reformChannels s).lighting.channels
    reformChannels s = { s with lighting := { s.lighting with channels := channels } } ∧
    channels.length = s.lighting.channels.length ∧
    ∀ (i : Nat) (c : ChannelConfig) (ch x : Channel), s.start.config.lighting.channels[i]? = some c →
      s.lighting.channels[i]? = some ch → channels[i]? = some x →
      ChannelRow s i c.mode x.desired x.tier ∧
      x = trackChannel s.clock { ch with
        desired := x.desired, tier := x.tier, granted := if x.tier = none then 0 else ch.granted }) ∧
  ∀ s : State, s.start.running = true →
    (∀ (i : Fin 4) (c : Channel) (l0 t0 : Nat), s.lighting.channels[i.val]? = some c → c.rise = some (l0, t0) →
      let fade := s.start.config.lighting.fade
      let level := min c.target (l0 + fade * (s.clock - t0) / 1000)
      1 ≤ fade → c.present < c.target → l0 ≤ c.present → (c.present + 1 - l0) * 1000 ≤ fade * (s.clock - t0) → t0 ≤ s.clock →
      let rising : Channel := { c with present := level, rise := if level < c.target then some (l0, t0) else none }
      ∃ t, exec (.levelRiseStep i) s = .next t ∧ c.present < level ∧
        DrawFrame { s with lighting := { s.lighting with channels := updateAt i.val (fun _ => rising) s.lighting.channels } } t) ∧
    (∀ (n : Fin 2) (due : Nat), due ≤ s.clock →
      let f := if n = 0 then s.air.fan1 else s.air.fan2
      let k := if n = 0 then s.start.config.air.fan1 else s.start.config.air.fan2
      let onFan (x : Fan) : State :=
        { s with air := if n = 0 then { s.air with fan1 := x } else { s.air with fan2 := x } }
      let rising (p : Nat) : Option Nat := if p < f.target then some (s.clock + k.ramp) else none
      (f.state = .coasting → f.coastDue = some due → f.target = 0 → ∃ t, exec (.coastTimerExpiry n) s = .next t ∧
        DrawFrame (onFan { f with state := .stopped, coastDue := none }) t) ∧
      (f.state = .coasting → f.coastDue = some due → 0 < f.target → ∃ t, exec (.coastTimerExpiry n) s = .next t ∧
        DrawFrame (onFan { f with
          state := .running, direction := some f.requested, coastDue := none, present := min f.target 5
          rampDue := rising (min f.target 5) }) t) ∧
      (f.state = .running → f.rampDue = some due → ∃ t, exec (.rampTimerExpiry n) s = .next t ∧
        DrawFrame (onFan { f with
          present := min f.target (f.present + 5), rampDue := rising (min f.target (f.present + 5)) }) t))

/-! ## Doors -/

/-- DOOR_CONTACT_CHANGE: a settling door waits for both levels; a CLOSED door that opens counts a cycle and is OPEN_SEALED with
a trailer and OPEN_UNSEALED without, where the hold timer starts; an open door that closes gathers its open time; the seventh
change within 30 s is FAULT, and in FAULT a change only starts the stable timer again (R93, R94, R96, R98, R99, R103). A
change of the raw level starts the stable time of 500 ms again and does nothing else (R93; assumption log 11). A change of the
trailer sensor that is due at the same instant is taken in the same event, as `DoorTrailer` says (R95); that the commanded change
comes first is the model's order (assumption log 27). While a door settles, a contact that has changed again before the trailer
sensor's first level is only stored, nothing enters the chatter window, and the state is taken from the levels as they then
stand: the model's choice (DESIGN CHOICE, assumption log 29). Open time is gathered in milliseconds into the remainder, each full second
into the open seconds, held at 4294967295, and nothing else of the record moves but the moment it is gathered up to (R103). -/
def Obligations.DoorContact : Prop :=
  (∀ (now : Nat) (r : Door), (r.openMark = none → gatherOpen now r = r) ∧
    ∀ m, r.openMark = some m →
      let gathered := r.remainder + (now - m)
      gatherOpen now r = { r with
        openSeconds := min 4294967295 (r.openSeconds + gathered / 1000), remainder := gathered % 1000, openMark := some now }) ∧
  (∀ (now limit : Nat) (isOpen : Bool) (r : Door),
    let taken := contactChange now limit isOpen r
    let d : Door := { r with contact := { r.contact with level := some isOpen } }
    let window := r.chatter.filter (fun e => decide (now - e < 30000)) ++ [now]
    let sealed_ := r.trailer.level = some true
    let opened (x : Door) : Door := { x with
      state := if sealed_ then .openSealed else .openUnsealed, openSince := some now, openMark := some now
      holdSince := if sealed_ ∨ limit = 0 then none else some now }
    let shut (x : Door) : Door := { x with openSince := none, openMark := none, holdSince := none }
    (r.settling = true → r.trailer.level = none → taken = d) ∧
    (r.settling = true → r.trailer.level ≠ none → isOpenState r.state = false →
      taken = if isOpen then { opened d with settling := false } else { shut d with settling := false, state := .closed }) ∧
    (r.settling = false → r.state = .fault → taken = { d with stableSince := some now }) ∧
    (r.settling = false → r.state ≠ .fault → 7 ≤ window.length →
      taken = { shut (if isOpenState r.state then gatherOpen now d else d) with
        state := .fault, chatter := [], stableSince := some now }) ∧
    (r.settling = false → r.state = .closed → window.length < 7 → isOpen = true →
      taken = { opened d with cycles := min 65535 (r.cycles + 1), chatter := window }) ∧
    (r.settling = false → isOpenState r.state = true → window.length < 7 → isOpen = false →
      taken = { shut (gatherOpen now d) with state := .closed, chatter := window }) ∧
    (r.settling = false → r.state ≠ .fault → window.length < 7 → isOpenState r.state = isOpen →
      taken = { d with chatter := window })) ∧
  ∀ (s : State) (n : Fin 8) (isOpen : Bool) (r : Door), s.start.running = true → s.doors.records[n.val]? = some r →
    let limit := s.start.config.doors.holdLimit
    let becomes (x : Door) : State := { s with doors := { s.doors with records := updateAt n.val (fun _ => x) s.doors.records } }
    let taken := contactChange s.clock limit isOpen r
    let both : Prop := r.trailer.level ≠ some r.trailer.raw ∧ r.trailer.since + 500 ≤ s.clock
    (r.contact.raw ≠ isOpen → exec (.doorContactChange n isOpen .raw) s =
      .next (becomes { r with contact := { r.contact with raw := isOpen, since := s.clock } })) ∧
    (r.contact.raw = isOpen → r.contact.since + 500 ≤ s.clock → r.contact.level ≠ some isOpen →
      ∃ t, exec (.doorContactChange n isOpen .stable) s = .next t ∧
        (¬both → EventFrame s (becomes taken) t) ∧
        (both → EventFrame s (becomes (trailerChange s.clock limit r.trailer.raw taken)) t) ∧
        (conditionSet t.alarms.active 5 = true ↔ ∃ x ∈ t.doors.records, x.state = .fault))

/-- DOOR_TRAILER_CHANGE: an unsealed open door is OPEN_SEALED when the trailer comes and the hold timer stops, and OPEN_UNSEALED
again when it leaves, where the hold timer starts afresh; the open-since time stands. Settling, the seventh change within
30 s, FAULT and a change of the raw level are as for the contact (R93, R95, R96, R98, R99). A change of the contact that is due
at the same instant is taken after the trailer sensor's in the same event; in either order the door ends in the same state, and
short of a FAULT in the same record: one cycle, one start of the hold timer, two changes in the chatter window (R95). The model's
choices: of the two orders R95 allows the commanded change comes first, which a seventh change shows in the record (DESIGN
CHOICE, assumption log 27); and while a door settles, a trailer sensor that has changed again before the contact's first level is
only stored, and the state is taken from the levels as they then stand (DESIGN CHOICE, assumption log 29). -/
def Obligations.DoorTrailer : Prop :=
  (∀ (now limit : Nat) (isPresent : Bool) (r : Door),
    let taken := trailerChange now limit isPresent r
    let d : Door := { r with trailer := { r.trailer with level := some isPresent } }
    let window := r.chatter.filter (fun e => decide (now - e < 30000)) ++ [now]
    let shut (x : Door) : Door := { x with openSince := none, openMark := none, holdSince := none }
    let holds : Option Nat := if isPresent = true ∨ limit = 0 then none else some now
    (r.settling = true → r.contact.level = none → taken = d) ∧
    (r.settling = true → r.contact.level = some true → isOpenState r.state = false →
      taken = { d with
        settling := false, state := if isPresent then .openSealed else .openUnsealed, openSince := some now
        openMark := some now, holdSince := holds }) ∧
    (r.settling = true → r.contact.level = some false → isOpenState r.state = false →
      taken = { shut d with settling := false, state := .closed }) ∧
    (r.settling = false → r.state = .fault → taken = { d with stableSince := some now }) ∧
    (r.settling = false → r.state ≠ .fault → 7 ≤ window.length →
      taken = { shut (if isOpenState r.state then gatherOpen now d else d) with
        state := .fault, chatter := [], stableSince := some now }) ∧
    (r.settling = false → window.length < 7 → isPresent = true → r.state = .openUnsealed ∨ r.state = .held →
      taken = { d with state := .openSealed, holdSince := none, chatter := window }) ∧
    (r.settling = false → window.length < 7 → isPresent = false → r.state = .openSealed →
      taken = { d with state := .openUnsealed, holdSince := holds, chatter := window }) ∧
    (r.settling = false → window.length < 7 → r.state = .closed ∨ (isPresent = true ∧ r.state = .openSealed) ∨
        (isPresent = false ∧ (r.state = .openUnsealed ∨ r.state = .held)) →
      taken = { d with chatter := window })) ∧
  (∀ (now limit : Nat) (isOpen isPresent : Bool) (r : Door), r.settling = false →
    let contactFirst := trailerChange now limit isPresent (contactChange now limit isOpen r)
    let trailerFirst := contactChange now limit isOpen (trailerChange now limit isPresent r)
    contactFirst.state = trailerFirst.state ∧
    (r.state ≠ .fault → (r.chatter.filter fun e => decide (now - e < 30000)).length + 2 < 7 → contactFirst = trailerFirst)) ∧
  ∀ (s : State) (n : Fin 8) (isPresent : Bool) (r : Door), s.start.running = true → s.doors.records[n.val]? = some r →
    let limit := s.start.config.doors.holdLimit
    let becomes (x : Door) : State := { s with doors := { s.doors with records := updateAt n.val (fun _ => x) s.doors.records } }
    let taken := trailerChange s.clock limit isPresent r
    let both : Prop := r.contact.level ≠ some r.contact.raw ∧ r.contact.since + 500 ≤ s.clock
    (r.trailer.raw ≠ isPresent → exec (.doorTrailerChange n isPresent .raw) s =
      .next (becomes { r with trailer := { r.trailer with raw := isPresent, since := s.clock } })) ∧
    (r.trailer.raw = isPresent → r.trailer.since + 500 ≤ s.clock → r.trailer.level ≠ some isPresent →
      ∃ t, exec (.doorTrailerChange n isPresent .stable) s = .next t ∧
        (¬both → EventFrame s (becomes taken) t) ∧
        (both → EventFrame s (becomes (contactChange s.clock limit r.contact.raw taken)) t) ∧
        (conditionSet t.alarms.active 5 = true ↔ ∃ x ∈ t.doors.records, x.state = .fault))

/-- DOOR_SETTLING_ENDS takes the state from the levels the two inputs then have, which are their first ones unless one of them has
changed again while the door settled: that such a change counts is the model's choice (DESIGN CHOICE, assumption log 29).
DOOR_HOLD_EXPIRY makes an OPEN_UNSEALED door HELD at the hold
limit; DOOR_FAULT_CLEAR, 120 s after the last change, takes the state from the levels with an empty chatter window
(R93, R96, R99). -/
def Obligations.DoorTimers : Prop :=
  ∀ (s : State) (n : Fin 8) (r : Door), s.start.running = true → s.doors.records[n.val]? = some r →
    let limit := s.start.config.doors.holdLimit
    let becomes (x : Door) : State := { s with doors := { s.doors with records := updateAt n.val (fun _ => x) s.doors.records } }
    let takes (x : Door) (isOpen isPresent : Bool) : Door := { x with
      state := if isOpen then (if isPresent then .openSealed else .openUnsealed) else .closed
      openSince := if isOpen then some s.clock else none
      openMark := if isOpen then some s.clock else none
      holdSince := if isOpen = true ∧ isPresent = false ∧ limit ≠ 0 then some s.clock else none }
    let first (level : Bool) (i : Debounced) : Debounced := if i.level = none then { i with level := some level } else i
    let has (level : Bool) (i : Debounced) : Prop :=
      i.level = some level ∨ (i.level = none ∧ i.raw = level ∧ i.since + 500 ≤ s.clock)
    (∀ isOpen isPresent, r.settling = true → isOpenState r.state = false →
      has isOpen r.contact → has isPresent r.trailer →
      ∃ t, exec (.doorSettlingEnds n isOpen isPresent) s = .next t ∧
        EventFrame s (becomes { takes r isOpen isPresent with
          settling := false, contact := first isOpen r.contact, trailer := first isPresent r.trailer }) t) ∧
    (∀ h, r.state = .openUnsealed → r.holdSince = some h → h + limit * 1000 ≤ s.clock →
      ∃ t, exec (.doorHoldExpiry n) s = .next t ∧ conditionSet t.alarms.active 4 = true ∧
        EventFrame s (becomes { r with state := .held, holdSince := none }) t) ∧
    (∀ q, r.state = .fault → r.stableSince = some q → q + 120000 ≤ s.clock →
      ∃ t, exec (.doorFaultClear n) s = .next t ∧
        EventFrame s (becomes { takes r (decide (r.contact.level = some true)) (decide (r.trailer.level = some true)) with
          stableSince := none, chatter := [] }) t)

/-- BOOST_RECOVERY_EXPIRY ends boost; OPEN_SECONDS_ADVANCE adds one second, held at 4294967295, and takes 1000 ms from the
remainder, and nothing else changes (R102, R103). The open-unsealed count is the number of doors that are OPEN_UNSEALED or HELD;
while it is above 0 boost is active and the recovery timer stopped; when it falls to 0 the timer starts at the recovery time,
and with a recovery time of 0 boost ends at once; and a count that stays 0 leaves boost and the timer as they are (R101, R102). -/
def Obligations.BoostAndOpenSeconds : Prop :=
  (∀ (now recovery : Nat) (d : Doors),
    let n := (d.records.filter fun r => decide (r.state = .openUnsealed ∨ r.state = .held)).length
    countUnsealed d.records = n ∧
    (0 < n → settleBoost now recovery d = { d with openUnsealed := n, boost := true, recoveryDue := none }) ∧
    (n = 0 → 0 < d.openUnsealed → settleBoost now recovery d = { d with
      openUnsealed := 0, boost := decide (0 < recovery)
      recoveryDue := if 0 < recovery then some (now + recovery * 1000) else none }) ∧
    (n = 0 → d.openUnsealed = 0 → settleBoost now recovery d = d)) ∧
  ∀ s : State, s.start.running = true →
    (∀ due, s.doors.recoveryDue = some due → due ≤ s.clock → ∃ t, exec .boostRecoveryExpiry s = .next t ∧
      EventFrame s { s with doors := { s.doors with boost := false, recoveryDue := none } } t) ∧
    (∀ (n : Fin 8) (r : Door) (m : Nat), s.doors.records[n.val]? = some r → r.openMark = some m → r.remainder ≤ 1000 →
      m ≤ s.clock → 1000 ≤ r.remainder + (s.clock - m) →
      let counted : Door := { r with
        openSeconds := min 4294967295 (r.openSeconds + 1), remainder := r.remainder + (s.clock - m) - 1000
        openMark := some s.clock }
      exec (.openSecondsAdvance n) s =
        .next { s with doors := { s.doors with records := updateAt n.val (fun _ => counted) s.doors.records } })

/-! ## Heating -/

/-- TEMPERATURE_READING: a reading that returns nothing or lies outside −400 to +600 puts the monitor in fault with no reading
held and both limits clear; any other is held, sets or clears FREEZE and OVERHEAT past their limits with the hysteresis, and
the next reading comes 1000 ms later. Then every threshold call is judged and every demand formed, and a stage that is
called, granted and past its min-off time is energised before the demands are published (R106 to R109, R112, R113, R115).
Wherever the heat unit forms its setpoint within an event, S, S_eff, the calls and the demands follow R111 to R113 with the
rows of Table 25 (R114), and each stage keeps its grant until the event ends: the model's choice (DESIGN CHOICE, assumption
log 19). -/
def Obligations.TemperatureReading : Prop :=
  (∀ s : State,
    let h := (reformHeat s).heat
    let rule : Option Effect := (ruling s.overrides.heat).map fun e => e.effect
    let page := s.start.config.pages.getD s.shift.page.val (Page.builtIn 0)
    let c := s.start.config.heat
    reformHeat s = { s with heat := { s.heat with
      setpoint := h.setpoint, source := h.source, effective := h.effective, stages := h.stages } } ∧
    (∀ x, rule = some (.setpoint x) → h.setpoint = x ∧ h.source = .override) ∧
    ((∀ x, rule ≠ some (.setpoint x)) →
      if page.pageClass = .working ∧ s.lighting.bay ≠ .vacant then h.setpoint = page.occupied ∧ h.source = .occupied
      else h.setpoint = page.unoccupied ∧ h.source = .unoccupied) ∧
    h.effective = h.setpoint + (if s.doors.boost then c.boostDelta else 0) +
      (match rule with | some (.boost d) => d | _ => 0) ∧
    h.stages.length = s.heat.stages.length ∧
    ∀ (k : Nat) (st st' : Stage), s.heat.stages[k]? = some st → h.stages[k]? = some st' →
      st'.granted = st.granted ∧
      st'.call = (if s.heat.fault then false else match s.heat.last with
        | some x => decide ((k * c.spacing : Nat) < h.effective - x) ||
            (st.call && decide ((k * c.spacing : Nat) - (c.hysteresis : Int) < h.effective - x))
        | none => st.call) ∧
      ∀ kc, c.stages[k]? = some kc →
        let called (tier : Tier) : Prop := st'.demand = .called ∧ st'.tier = some tier
        let cut : Prop := st'.on = false ∧ st'.demand = .none ∧ st'.tier = none
        let ordinary : Prop := if st'.on then st'.demand = .holding ∧ st'.tier = some 3 else st'.demand = .none ∧ st'.tier = none
        if s.heat.fault then
          if rule = some .hold then cut else if page.pageClass = .working ∧ k = 0 then called 2 else ordinary
        else if s.heat.overheat then cut
        else if s.heat.freeze = true ∧ k = 0 then called 0
        else if rule = some .hold then cut
        else if st'.call then called (if h.source = .unoccupied then 3 else 2)
        else ordinary) ∧
  (∀ s : State,
    let h := (stageReading s).heat
    let hold : Prop := (ruling s.overrides.heat).map (fun e => e.effect) = some .hold
    let page := s.start.config.pages.getD s.shift.page.val (Page.builtIn 0)
    stageReading s = { s with heat := { s.heat with stages := h.stages } } ∧
    h.stages.length = s.heat.stages.length ∧
    h.stages.map Stage.call =
      (judgeCallsFrom s.start.config.heat s.heat.fault s.heat.last s.heat.effective 0 s.heat.stages).map Stage.call ∧
    ∀ (k : Nat) (c : StageConfig) (st st' : Stage) (tier : Tier), s.start.config.heat.stages[k]? = some c →
      s.heat.stages[k]? = some st → h.stages[k]? = some st' → st.on = false → st.granted = true →
      st.since + c.minOff * 1000 ≤ s.clock →
      (if s.heat.fault then ¬hold ∧ page.pageClass = .working ∧ k = 0 ∧ tier = 2
        else s.heat.overheat = false ∧
          if s.heat.freeze = true ∧ k = 0 then tier = 0
          else ¬hold ∧ st'.call = true ∧ tier = if s.heat.source = .unoccupied then 3 else 2) →
      st' = { st with call := st'.call, demand := .called, tier := some tier, on := true, since := s.clock }) ∧
  ∀ (s : State) (value : Option Int), s.start.running = true → s.heat.nextReading ≤ s.clock →
    let c := s.start.config.heat
    ∃ t, exec (.temperatureReading value) s = .next t ∧
      conditionSet t.alarms.active 2 = t.heat.freeze ∧ conditionSet t.alarms.active 3 = t.heat.overheat ∧
      (∀ x, value = some x → -400 ≤ x → x ≤ 600 →
        let freeze := decide (x < c.criticalLow ∨ (s.heat.freeze = true ∧ x < c.criticalLow + c.hysteresis))
        let overheat := decide (c.high < x ∨ (s.heat.overheat = true ∧ c.high - c.hysteresis < x))
        t.heat.freeze = freeze ∧ t.heat.overheat = overheat ∧
        EventFrame s (stageReading { s with heat := { s.heat with
          nextReading := s.heat.nextReading + 1000, fault := false, last := some x, freeze := freeze, overheat := overheat } }) t) ∧
      ((∀ x, value = some x → x < -400 ∨ 600 < x) → conditionSet t.alarms.active 7 = true ∧
        t.heat.freeze = false ∧ t.heat.overheat = false ∧
        EventFrame s (stageReading { s with heat := { s.heat with
          nextReading := s.heat.nextReading + 1000, fault := true, last := none, freeze := false, overheat := false } }) t)

/-- STAGE_MIN_ON_EXPIRY switches a HOLDING stage off at this moment unless it is called again; STAGE_MIN_OFF_EXPIRY, at rest and
with no stage HOLDING, switches a called and granted stage on at this moment (R115, R116). That the demands and the switches
are formed afresh at the end of the event is the model's order (assumption log 19), and that the end of any other event at that
moment switches the stage as well is its choice (DESIGN CHOICE, assumption log 32). -/
def Obligations.StageMinimumTimes : Prop :=
  ∀ (s : State) (k : Fin 4) (c : StageConfig) (st : Stage), s.start.running = true →
    s.start.config.heat.stages[k.val]? = some c → s.heat.stages[k.val]? = some st →
    (∀ x ∈ s.start.config.heat.stages, 0 < x.minOff) →
    (st.on = true → st.demand = .holding → st.since + c.minOn * 1000 ≤ s.clock → st.since < s.clock →
      ∃ t, exec (.stageMinOnExpiry k) s = .next t ∧ EventFrame s s t ∧
        ∀ st', t.heat.stages[k.val]? = some st' →
          st'.demand = .called ∨ (st'.on = false ∧ st'.since = s.clock ∧ st'.granted = false)) ∧
    (st.on = false → st.demand = .called → st.granted = true → st.since + c.minOff * 1000 ≤ s.clock →
      ∃ t, exec (.stageMinOffExpiry k) s = .next t ∧ EventFrame s s t ∧
        (publish s s = s → (∀ x ∈ s.heat.stages, x.demand ≠ .holding) →
          t.heat.stages[k.val]? = some { st with on := true, since := s.clock }))

/-! ## Ventilation -/

/-- GAS_SAMPLE: a value above full scale or an open circuit faults the channel, with its runs at 0 and its levels as they
stand; any other is held, each level asserts after the assert window at or above its threshold and clears after the clear
window below the threshold less the band, and a fault clears after the clear window; the next sample comes 500 ms later
(R120, R121). The bay gas class is the higher of the two channels' classes (R122), and GAS_CRITICAL and GAS_ACTION are active as
it says (R149, Table 37). -/
def Obligations.GasSample : Prop :=
  ∀ (s : State) (g : Gas) (value : Option Nat), s.start.running = true →
    let k := s.start.config.air
    let c := match g with
      | .co => k.co
      | .no2 => k.no2
    let ch := match g with
      | .co => s.air.co
      | .no2 => s.air.no2
    let level (threshold n : Nat) (l : GasLevel) : GasLevel :=
      let counts : Bool := if l.asserted then decide (n < threshold - c.band) else decide (threshold ≤ n)
      let window := if l.asserted then k.clearWindow else k.assertWindow
      if counts then (if window ≤ l.run + 1 then { asserted := !l.asserted, run := 0 } else { l with run := l.run + 1 })
      else { l with run := 0 }
    let classOf (x : GasChannel) : GasClass :=
      if x.critical.asserted then .critical else if x.action.asserted ∨ x.fault then .action else .none
    let withChannel (x : GasChannel) : State :=
      let co := if g = .co then x else s.air.co
      let no2 := if g = .no2 then x else s.air.no2
      { s with air := { s.air with
        co := co, no2 := no2
        gasClass := if classOf co = .critical ∨ classOf no2 = .critical then .critical
          else if classOf co = .action ∨ classOf no2 = .action then .action else .none } }
    ch.nextSample ≤ s.clock →
    ∃ t, exec (.gasSample g value) s = .next t ∧
      (conditionSet t.alarms.active 0 = true ↔ t.air.gasClass = .critical) ∧
      (conditionSet t.alarms.active 1 = true ↔ t.air.gasClass = .action ∨ t.air.gasClass = .critical) ∧
      (∀ n, value = some n → n ≤ c.fullScale →
        EventFrame s (withChannel { ch with
          nextSample := ch.nextSample + 500, last := .value n
          fault := ch.fault && decide (ch.clearRun + 1 < k.clearWindow)
          clearRun := if ch.fault = true ∧ ch.clearRun + 1 < k.clearWindow then ch.clearRun + 1 else 0
          action := level c.action n ch.action, critical := level c.critical n ch.critical }) t) ∧
      ((∀ n, value = some n → c.fullScale < n) → conditionSet t.alarms.active 7 = true ∧
        EventFrame s (withChannel { ch with
          nextSample := ch.nextSample + 500, last := .faulty, fault := true, clearRun := 0
          action := { ch.action with run := 0 }, critical := { ch.critical with run := 0 } }) t)

/-! ## Load allocation and metering -/

/-- PENDING_INCREASE_EXPIRY: each applied grant takes the latest computed one, and the timer stops; a local realisation follows,
which grants every load what fits (R164 to R166). Where the demand records stand, that is all, and where they change with it, a
recomputation follows, as of the grants just applied (R157, R161). -/
def Obligations.PendingIncrease : Prop :=
  ∀ (s : State) (due : Nat), s.start.running = true → s.alloc.pendingDue = some due → due ≤ s.clock →
    let u : State := { s with alloc := { s.alloc with applied := s.alloc.computed, pendingDue := none } }
    ∃ t, exec .pendingIncreaseExpiry s = .next t ∧ EventFrame s u t ∧
      (demandRecords t ≠ demandRecords s → GrantsFormed u t) ∧
      (DemandsOk s → demandRecords t = demandRecords s →
        t.alloc.applied = s.alloc.computed ∧ t.alloc.computed = s.alloc.computed ∧ t.alloc.pendingDue = none ∧
        t.alloc.requests = s.alloc.requests ∧ t.alloc.capExceeded = s.alloc.capExceeded) ∧
      (ShapeOk s → FittedOk t ∧ budgetDraw Load.granted (loadList t) ≤ t.alloc.applied.total)

/-- METER_PULSE: the stamps move on, the pulse weight joins the energy accumulator, held at 4294967295, and M is formed from the
last interval. METER_CHECK each 1000 ms: M from the longer of the last interval and the time since, 0 past the creep time;
ten checks in a row with M above E by more than the margin set the unaccounted term, ten without it clear it, and while it
is set it is M − E (R54, R169, R170, R171). A pulse within 20 ms of the last accepted one is ignored (R169); that one exactly
20 ms after it counts is the model's choice (assumption log 18). E is the sum of the nameplates of the loads at their present
settings, held at 65535, and a fan's flow is positive while it supplies, negative while it exhausts, and 0 at speed 0 (R124,
R156). -/
def Obligations.MeterPulseAndCheck : Prop :=
  (∀ loads : List Load,
    energisedDraw loads = min 65535 (loads.map fun l => nameplate l.fitting l.rated l.present).sum) ∧
  (∀ (flow : Nat) (f : Fan),
    (f.direction = some .supply → fanFlow flow f = ((flow * f.present / 100 : Nat) : Int)) ∧
    (f.direction = some .exhaust → fanFlow flow f = -((flow * f.present / 100 : Nat) : Int)) ∧
    (f.present = 0 → fanFlow flow f = 0)) ∧
  (∀ (s : State) (n : Nat), s.start.running = true → s.alloc.newest = some n → s.clock < n + 20 →
    exec .meterPulse s = .next s) ∧
  (∀ s : State, s.start.running = true → (∀ n, s.alloc.newest = some n → n + 20 ≤ s.clock) →
    ∃ t, exec .meterPulse s = .next t ∧
      DrawFrame { s with
        alloc := { s.alloc with
          newest := some s.clock, previous := s.alloc.newest
          measured := match s.alloc.newest with
            | some n => min 65535 (s.start.config.meter.weight * 36000 / (s.clock - n))
            | none => 0 }
        shift := { s.shift with energy := min 4294967295 (s.shift.energy + s.start.config.meter.weight) } } t) ∧
  ∀ s : State, s.start.running = true → s.alloc.nextCheck ≤ s.clock →
    let k := s.start.config.meter
    let m := match s.alloc.newest, s.alloc.previous with
      | some n, some p => if k.creep * 1000 < s.clock - n then 0 else min 65535 (k.weight * 36000 / max (n - p) (s.clock - n))
      | _, _ => 0
    let a : Alloc := { s.alloc with nextCheck := s.alloc.nextCheck + 1000, measured := m }
    let excess := s.alloc.energised + k.margin < m
    ∃ t, exec .meterCheck s = .next t ∧
      (a.unaccounted = false → ¬excess → EventFrame s { s with alloc := { a with excessRun := 0 } } t) ∧
      (a.unaccounted = false → excess → a.excessRun + 1 < 10 →
        EventFrame s { s with alloc := { a with excessRun := a.excessRun + 1 } } t) ∧
      (a.unaccounted = false → excess → 10 ≤ a.excessRun + 1 → conditionSet t.alarms.active 8 = true ∧
        EventFrame s { s with alloc := { a with excessRun := 0, unaccounted := true, term := m - a.energised } } t) ∧
      (a.unaccounted = true → excess →
        EventFrame s { s with alloc := { a with clearRun := 0, term := m - a.energised } } t) ∧
      (a.unaccounted = true → ¬excess → a.clearRun + 1 < 10 →
        EventFrame s { s with alloc := { a with clearRun := a.clearRun + 1, term := m - a.energised } } t) ∧
      (a.unaccounted = true → ¬excess → 10 ≤ a.clearRun + 1 → conditionSet t.alarms.active 8 = false ∧
        EventFrame s { s with alloc := { a with clearRun := 0, unaccounted := false, term := 0 } } t)

/-- A shed computation with cap C over any standings: no station is granted more than it requests in a tier, and the grants of
all counted stations in tiers 1 to 3, with D0 and the reserves, stay within C unless D0 and the reserves alone exceed it,
when nothing is granted (R158, R159). Each tier's requests are granted in full where their sum fits what the tiers before
have left; otherwise they are water-filled in ascending order: in full while the rest could have as much each, then
floor(R / k) for each of the k left, and nothing is left for the later tiers (R160). Every event that recomputes but the
settle delay's own leaves the grants as `GrantsFormed` says: an accepted BEACON of a configured peer, a change of the link
state, of an entry's state, of a demand record or of the unaccounted term (R155, R157, R161, R163). How each configured station
enters the computation is as R158 says, entry state by entry state, and the allowance outside JOINED that of R37, with S_iso = floor(C / N_cfg)
and the lowest of the silent causes' allowances. After such an event CAP_EXCEEDED is active exactly in JOINED with D0 and the
reserves above the cap (R158, R149). On every other event but the settle delay's end the requests, both grants, the settle delay
and the cause of CAP_EXCEEDED stand (R157, R161). -/
def Obligations.ShedStaysInBudget : Prop :=
  (∀ s : State,
    let nCfg := s.start.config.header.nCfg
    let share := s.start.config.header.cap / nCfg
    let k := s.view.causes
    let named : List (Bool × Nat) := [(k.duplicate, share), (k.timebase, share), (k.defaulted, 100), (k.strapRange, 0)]
    (standings s).length = nCfg ∧
    (∀ n, n < nCfg →
      (n = s.start.strapped → (standings s)[n]? = some (.counted s.alloc.requests)) ∧
      (n ≠ s.start.strapped → ∀ e, s.view.entries[n]? = some e →
        (e.state = .absent → (standings s)[n]? = some (.reserved share)) ∧
        ∀ b, e.beacon = some b →
          (e.state = .fresh ∨ e.state = .stale → b.link = .joined → (standings s)[n]? = some (.counted b.requests)) ∧
          (e.state = .fresh ∨ e.state = .stale → b.link ≠ .joined →
            (standings s)[n]? = some (.reserved (max share b.draw))) ∧
          (e.state = .lost → (standings s)[n]? = some (.reserved (max share b.draw))))) ∧
    (s.view.link = .listen ∨ s.view.link = .isolated → allowance s = share) ∧
    (s.view.link = .silent → k.isEmpty = false →
      (∃ x ∈ named, x.1 = true ∧ allowance s = x.2) ∧ ∀ x ∈ named, x.1 = true → allowance s ≤ x.2)) ∧
  (∀ (l : List Standing) (p : Nat) (r : Requests),
    (reserveSum (.reserved p :: l) = p + reserveSum l ∧ tierZeroDemand (.reserved p :: l) = tierZeroDemand l) ∧
    (reserveSum (.counted r :: l) = reserveSum l ∧ tierZeroDemand (.counted r :: l) = r.q0 + tierZeroDemand l) ∧
    (∀ t, Standing.request t (.reserved p) = 0) ∧
    (Standing.request 1 (.counted r) = r.q1 ∧ Standing.request 2 (.counted r) = r.q2 ∧
      Standing.request 3 (.counted r) = r.q3)) ∧
  (∀ (c : Instr) (s t : State), s.start.running = true → t.start.running = true → exec c s = .next t →
    c ≠ .pendingIncreaseExpiry →
    (t.view.link ≠ s.view.link ∨ demandRecords t ≠ demandRecords s ∨ t.alloc.term ≠ s.alloc.term ∨
      t.view.entries.map PeerEntry.state ≠ s.view.entries.map PeerEntry.state ∨
      ∃ sender p, c = .beaconReceived sender p ∧ s.line.engine = .receive ∧ sender.toNat < 32 ∧
        sender.toNat < s.start.config.header.nCfg ∧ sender.toNat ≠ s.start.strapped) →
    GrantsFormed s t ∧
    (conditionSet t.alarms.active 9 = true ↔ t.view.link = .joined ∧
      t.start.config.header.cap < reserveSum (standings t) + tierZeroDemand (standings t))) ∧
  (∀ (c : Instr) (s t : State), s.start.running = true → t.start.running = true → exec c s = .next t → DemandsOk s →
    (c = .pendingIncreaseExpiry → ∀ due, s.alloc.pendingDue = some due → s.clock < due) →
    t.view.link = s.view.link → demandRecords t = demandRecords s → t.alloc.term = s.alloc.term →
    t.view.entries.map PeerEntry.state = s.view.entries.map PeerEntry.state →
    (∀ sender p, c = .beaconReceived sender p → s.line.engine = .receive → sender.toNat < 32 →
      sender.toNat < s.start.config.header.nCfg → sender.toNat = s.start.strapped) →
    t.alloc.requests = s.alloc.requests ∧ t.alloc.computed = s.alloc.computed ∧ t.alloc.applied = s.alloc.applied ∧
      t.alloc.pendingDue = s.alloc.pendingDue ∧ t.alloc.capExceeded = s.alloc.capExceeded) ∧
  (∀ (r : ShedResult) (q : Requests),
    ownGrants r q = { g1 := grantOf r.fill1 q.q1, g2 := grantOf r.fill2 q.q2, g3 := grantOf r.fill3 q.q3 }) ∧
  (∀ (c : Nat) (l : List Standing),
    let r := shedComputation c l
    let requests (t : Tier) : List Nat := (l.map (Standing.request t)).filter fun q => decide (0 < q)
    let rest (t : Tier) (budget : Nat) : Nat := if (requests t).sum ≤ budget then budget - (requests t).sum else 0
    let budget := c - (reserveSum l + tierZeroDemand l)
    ∀ (t : Tier) (fill : List (Nat × Nat)) (left : Nat),
      (t, fill, left) ∈ [((1 : Tier), r.fill1, budget), (2, r.fill2, rest 1 budget), (3, r.fill3, rest 2 (rest 1 budget))] →
      ((requests t).sum ≤ left → ∀ q ∈ requests t, grantOf fill q = q) ∧
      ∀ (pre post : List Nat) (x : Nat), (pre ++ x :: post).Perm (requests t) → (pre ++ x :: post).Pairwise (· ≤ ·) →
        left < (requests t).sum →
        (∀ a q b, pre = a ++ q :: b → a.sum + q * (b.length + 1 + (post.length + 1)) ≤ left) →
        left < pre.sum + x * (post.length + 1) →
        (∀ q ∈ pre, grantOf fill q = q) ∧ ∀ q ∈ x :: post, grantOf fill q = (left - pre.sum) / (post.length + 1)) ∧
  ∀ (c : Nat) (l : List Standing),
    let r := shedComputation c l
    let spent := reserveSum l + tierZeroDemand l
    let granted (t : Tier) (fill : List (Nat × Nat)) : Nat := (l.map fun x => grantOf fill (Standing.request t x)).sum
    (r.exceeded = true ↔ c < spent) ∧
    granted 1 r.fill1 + granted 2 r.fill2 + granted 3 r.fill3 ≤ c - spent ∧
    ∀ x ∈ l, grantOf r.fill1 (Standing.request 1 x) ≤ Standing.request 1 x ∧
      grantOf r.fill2 (Standing.request 2 x) ≤ Standing.request 2 x ∧
      grantOf r.fill3 (Standing.request 3 x) ≤ Standing.request 3 x

/-! ## Invariants -/

/-- The reset state has every property that the steps are stated to keep. -/
def Obligations.InvariantsAtReset : Prop :=
  let s := State.reset
  ConfigOk s.start.config ∧ ShapeOk s ∧ LinkOk s ∧ QueueOk s ∧ StacksOk s ∧ TrafficOk s ∧ DoorsOk s ∧ HeatOk s ∧ AlarmsOk s ∧
    (s.start.running = true → DemandsOk s) ∧ GrantsOk s ∧ OutputsOk s ∧ RequestsOk s ∧ BudgetOk s ∧ FittedOk s

/-- Every step keeps the line side sound: the queue's limits, one item in flight at most, an empty queue in SILENT, and SILENT
exactly while a silent cause is present (R5, R16, R17, R20, R24, R36). -/
def Obligations.LineInvariantsKept : Prop :=
  ∀ s t : State, LinkOk s → QueueOk s → Machine.step s = .next t → LinkOk t ∧ QueueOk t

/-- Every step keeps the units sound: the configuration's ranges and the records' number, the override stacks' limits, the
count's range with UNCERTAIN and the bay lighting state, boost, the temperature limits, and the latched flags
(R68, R71, R76, R92, R101, R102, R105, R107, R137, R138, R149). -/
def Obligations.UnitInvariantsKept : Prop :=
  ∀ s t : State, ConfigOk s.start.config → ShapeOk s → StacksOk s → TrafficOk s → DoorsOk s → HeatOk s → AlarmsOk s →
    Machine.step s = .next t →
    ConfigOk t.start.config ∧ ShapeOk t ∧ StacksOk t ∧ TrafficOk t ∧ DoorsOk t ∧ HeatOk t ∧ AlarmsOk t

/-- Every step of a running station leaves every unit's demands as the unit's table gives them for the state as it then
stands, where they were so before (R88, R100, R111, R132, R154). In such a state each channel has the level and tier of its
mode and its row of Table 17 (R80 to R82), each stage the demand of its row of Table 25 (R113, R114), and each fan what its row
of Table 31 gives it, with neighbour assist and the balancing speed (R125, R126, R134). A running station drives its field
outputs from its records: each channel's duty by its mode (R80), the dock lights, curtains and stages (R89, R100, R117), each
fan's drive (R131) and the attention pin (R151). -/
def Obligations.DemandsKept : Prop :=
  (∀ s t : State, (s.start.running = true → DemandsOk s) → Machine.step s = .next t →
    (t.start.running = true → DemandsOk t)) ∧
  (∀ s : State, DemandsOk s →
    let page := s.start.config.pages.getD s.shift.page.val (Page.builtIn 0)
    let air := s.start.config.air
    let hold : Prop := (ruling s.overrides.heat).map (fun e => e.effect) = some .hold
    let vent : Option Effect := (ruling s.overrides.vent).map fun e => e.effect
    let stops : Prop := vent = some .stop ∨ ∃ d, vent = some (.purge d 0)
    let isOccupied : Prop := 0 < s.traffic.count ∨ ∃ z ∈ s.traffic.zones, z.asserted = true ∨ z.releasedAt ≠ none
    let critical (n : Nat) : Prop := n < s.start.config.header.nCfg ∧ ∃ e, s.view.entries[n]? = some e ∧
      (e.state = .fresh ∨ e.state = .stale) ∧ ∃ a, e.alarms = some a ∧ conditionSet a 0 = true
    let assist : Prop := (∃ n, n + 1 = s.start.strapped ∧ critical n) ∨ critical (s.start.strapped + 1)
    let balance := s.air.balancing
    let speed := if air.fan2.flow = 0 then 0 else balance.natAbs * 100 / air.fan2.flow / 5 * 5
    let runs (f : Fan) (source : FanSource) (dir : AirDir) (percent : Nat) (tier : Tier) : Prop :=
      f.source = source ∧ f.requested = dir ∧ f.desired = percent ∧ f.tier = some tier
    let rests (f : Fan) (source : FanSource) : Prop := f.source = source ∧ f.desired = 0 ∧ f.tier = none
    (∀ (i : Nat) (c : ChannelConfig) (ch : Channel), s.start.config.lighting.channels[i]? = some c →
      s.lighting.channels[i]? = some ch → ChannelRow s i c.mode ch.desired ch.tier) ∧
    (∀ (k : Nat) (c : StageConfig) (st : Stage), s.start.config.heat.stages[k]? = some c → s.heat.stages[k]? = some st →
      let called (tier : Tier) : Prop := st.demand = .called ∧ st.tier = some tier
      let off : Prop := st.on = false ∧ st.demand = .none ∧ st.tier = none ∧ st.granted = false
      (s.heat.fault = true →
        (hold → off) ∧ (¬hold → page.pageClass = .working → k = 0 → called 2) ∧
        (¬hold → ¬(page.pageClass = .working ∧ k = 0) → if st.on then st.demand = .holding ∧ st.tier = some 3 else off)) ∧
      (s.heat.fault = false →
        (s.heat.overheat = true → off) ∧
        (s.heat.overheat = false → s.heat.freeze = true → k = 0 → called 0) ∧
        (s.heat.overheat = false → ¬(s.heat.freeze = true ∧ k = 0) →
          (hold → off) ∧ (¬hold → st.call = true → called (if s.heat.source = .unoccupied then 3 else 2)) ∧
          (¬hold → st.call = false → if st.on then st.demand = .holding ∧ st.tier = some 3 else off)))) ∧
    ((s.air.gasClass = .critical → runs s.air.fan1 .critical .exhaust 100 0 ∧ runs s.air.fan2 .critical .exhaust 100 0) ∧
      (s.air.gasClass = .action → runs s.air.fan1 .action .exhaust air.actionSpeed 1) ∧
      (∀ d n, vent = some (.purge d n) → 0 < n → (s.air.gasClass = .none → runs s.air.fan1 .vent d n 1) ∧
        (s.air.gasClass ≠ .critical → runs s.air.fan2 .vent d n 1)) ∧
      (s.air.gasClass = .none → stops → rests s.air.fan1 .vent) ∧
      (s.air.gasClass = .none → vent = none →
        (0 < page.minVent → page.pageClass = .working ∨ isOccupied → runs s.air.fan1 .minimum .exhaust page.minVent 2) ∧
        (page.minVent = 0 ∨ ¬(page.pageClass = .working ∨ isOccupied) → rests s.air.fan1 .none)) ∧
      (s.air.gasClass ≠ .critical → vent = none ∨ stops →
        (assist → runs s.air.fan2 .assist .supply air.assistSpeed 1) ∧
        (¬assist → stops → rests s.air.fan2 .vent) ∧
        (¬assist → vent = none → 0 < speed →
          runs s.air.fan2 .balancing (if 0 < balance then .supply else .exhaust) speed 3) ∧
        (¬assist → vent = none → speed = 0 → rests s.air.fan2 .none)))) ∧
  ∀ s : State, s.start.running = true →
    let alarms := s.start.config.alarms
    (∀ (i : Nat) (c : ChannelConfig) (ch : Channel), s.start.config.lighting.channels[i]? = some c →
      s.lighting.channels[i]? = some ch →
      (lightingDuties s)[i]? = some (match c.mode with
        | .follow => ch.present
        | .followInverted => 100 - ch.present
        | .fullForced => ch.present
        | .offForced => 0)) ∧
    (dockOutputs s = s.lighting.docks.map fun d => d.output) ∧ (curtainOutputs s = s.doors.records.map fun d => d.curtainOn) ∧
    (stageOutputs s = s.heat.stages.map fun st => st.on) ∧
    (∀ f ∈ [s.air.fan1, s.air.fan2], (f.present = 0 → fanDrive s f = none) ∧
      ∀ dir, 0 < f.present → f.direction = some dir → fanDrive s f = some (dir, f.present)) ∧
    ((∃ n, n < 16 ∧ conditionSet alarms.annunciate n = true ∧
        (conditionSet s.alarms.active n = true ∨ conditionSet s.alarms.latched n = true)) →
      attentionPin s = some alarms.assertedHigh) ∧
    ((∀ n, n < 16 → conditionSet alarms.annunciate n = true →
        conditionSet s.alarms.active n = false ∧ conditionSet s.alarms.latched n = false) →
      attentionPin s = some !alarms.assertedHigh)

/-- Every step keeps the own requests at the sums of the demand records, the applied grants at or below the computed ones,
every output within what was granted to it, and the loads of tiers 1 to 3 within the applied grants, as granted and as
energised; and it keeps every load of a running station granted just what the applied grants give it: nothing without a record,
tier 0 in full, and in tiers 1 to 3, in the order of the load list, the largest level, 5 % step or whole load that fits what is
left of the tier's grant and of what the tiers before it left (R84, R86, R89, R100, R116, R127, R128, R155, R161, R164, R165,
R166, R167). The load list holds the four channels, the dock lights, the two fans, the curtains and the stages in the order of
Table 38, each with its record and its granted and present settings (R154); the nameplate of a load is its draw at a setting, by
its fitting, and the own request of a tier is the sum of the nameplates that its records ask for, with the unaccounted term in
Q0, held at 65535 (R155). -/
def Obligations.LoadInvariantsKept : Prop :=
  (∀ rated x : Nat, nameplate .dimmable rated x = rated * x / 100 ∧ nameplate .stepped rated x = rated * x ^ 3 / 1000000 ∧
    nameplate .whole rated x = if x = 0 then 0 else rated) ∧
  (∀ (loads : List Load) (term : Nat),
    let sum (t : Tier) : Nat := (loads.map fun l => match l.demand with
      | some d => if d.tier = t then nameplate l.fitting l.rated d.setting else 0
      | none => 0).sum
    formRequests loads term =
      { q0 := min 65535 (sum 0 + term), q1 := min 65535 (sum 1), q2 := min 65535 (sum 2), q3 := min 65535 (sum 3) }) ∧
  (∀ s : State, ShapeOk s → s.start.running = true →
    let c := s.start.config
    let n := c.doors.curtains.length
    let on (demanded : Bool) : Option Demand := if demanded then some { setting := 1, tier := 1 } else none
    let flag (b : Bool) : Nat := if b then 1 else 0
    let fan (k : FanConfig) (f : Fan) : Load :=
      { fitting := .stepped, rated := k.rated
        demand := if f.desired = 0 then none else f.tier.map fun t => { setting := f.desired, tier := t }
        granted := f.granted, present := f.present }
    (loadList s).length = 4 + n + 2 + n + c.heat.stages.length ∧
    (∀ (i : Nat) (k : ChannelConfig) (ch : Channel), c.lighting.channels[i]? = some k → s.lighting.channels[i]? = some ch →
      (loadList s)[i]? = some
        { fitting := .dimmable, rated := k.rated, demand := ch.tier.map fun t => { setting := ch.desired, tier := t }
          granted := ch.granted, present := ch.present }) ∧
    (∀ (i rated : Nat) (d : DockLight), c.doors.docks[i]? = some rated → s.lighting.docks[i]? = some d →
      (loadList s)[4 + i]? = some
        { fitting := .whole, rated := rated, demand := on d.demanded, granted := flag d.granted, present := flag d.output }) ∧
    (loadList s)[4 + n]? = some (fan c.air.fan1 s.air.fan1) ∧ (loadList s)[4 + n + 1]? = some (fan c.air.fan2 s.air.fan2) ∧
    (∀ (i rated : Nat) (d : Door), c.doors.curtains[i]? = some rated → s.doors.records[i]? = some d →
      (loadList s)[4 + n + 2 + i]? = some
        { fitting := .whole, rated := rated, demand := on d.curtainDemanded, granted := flag d.curtainGranted
          present := flag d.curtainOn }) ∧
    (∀ (i : Nat) (k : StageConfig) (st : Stage), c.heat.stages[i]? = some k → s.heat.stages[i]? = some st →
      (loadList s)[4 + n + 2 + n + i]? = some
        { fitting := .whole, rated := k.rated
          demand := if st.demand = .none then none else st.tier.map fun t => { setting := 1, tier := t }
          granted := flag st.granted, present := flag st.on })) ∧
  ∀ s t : State, ConfigOk s.start.config → ShapeOk s → (s.start.running = true → DemandsOk s) → GrantsOk s → OutputsOk s →
    RequestsOk s → BudgetOk s → FittedOk s → Machine.step s = .next t →
    GrantsOk t ∧ OutputsOk t ∧ RequestsOk t ∧ BudgetOk t ∧ FittedOk t

/-- The epoch only moves forward: outside a power-on reset a step leaves it, takes it from UNKNOWN, or takes a newer one, and the
page changes only with it or to a lower one (R49, R50, R51, R56). -/
def Obligations.EpochAdvances : Prop :=
  ∀ (c : Instr) (s t : State), exec c s = .next t → c ≠ .powerOnReset → (∀ r, c ≠ .startSequenceEnd r) →
    (t.shift.epoch = s.shift.epoch ∧ t.shift.page ≤ s.shift.page) ∨
    (∃ new, t.shift.epoch = some new ∧ ∀ old, s.shift.epoch = some old →
      1 ≤ (new - old).toNat ∧ (new - old).toNat ≤ 127)
end

