-- ==== Sys2Proof/Laws/Clock.lean ====
section
/-! SUPPORT. What a tick queues: exactly the timer events that are due (assumption log 1). -/

namespace Sys2Proof.Machine

/-- The command that settles a door, for the levels with which it may settle (R93). -/
theorem settlingCommand_of_due {d : Fin 8} {isOpen isPresent : Bool} {s : State} (h : settlingDue d isOpen isPresent s = true) :
    settlingCommand s d = .doorSettlingEnds d isOpen isPresent := by
  unfold settlingDue doorTest at h
  unfold settlingCommand
  cases hr : doorOf d s with
  | none => simp [hr] at h
  | some r =>
    simp only [hr, maySettle, firstLevel, Debounced.held, Bool.and_eq_true, Bool.or_eq_true, decide_eq_true_eq] at h
    obtain ⟨-, ⟨-, ho⟩, hp⟩ := h
    simp only [Instr.doorSettlingEnds.injEq, true_and]
    constructor
    · rcases ho with h | ⟨h, h', -⟩ <;> simp [h]
      exact h'
    · rcases hp with h | ⟨h, h', -⟩ <;> simp [h]
      exact h'

/-- The command of a contact's debounced change, for the level to which it may change (R93). -/
theorem contactCommand_of_due {d : Fin 8} {isOpen : Bool} {s : State} (h : contactAdmits d .stable isOpen s = true) :
    contactCommand s d = .doorContactChange d isOpen .stable := by
  unfold contactAdmits doorTest at h
  unfold contactCommand
  cases hr : doorOf d s with
  | none => simp [hr] at h
  | some r =>
    simp only [hr, Debounced.admits, Debounced.held, Bool.and_eq_true, decide_eq_true_eq] at h
    simp [h.2.2.1]

/-- The command of a trailer sensor's debounced change, for the level to which it may change (R93). -/
theorem trailerCommand_of_due {d : Fin 8} {isPresent : Bool} {s : State} (h : trailerAdmits d .stable isPresent s = true) :
    trailerCommand s d = .doorTrailerChange d isPresent .stable := by
  unfold trailerAdmits doorTest at h
  unfold trailerCommand
  cases hr : doorOf d s with
  | none => simp [hr] at h
  | some r =>
    simp only [hr, Debounced.admits, Debounced.held, Bool.and_eq_true, decide_eq_true_eq] at h
    simp [h.2.2.1]

/-- An override entry's expiry is among the expiries of its stack (R139). -/
theorem mem_stackExpiries_of_due {k : StackId} {source : SourceKind} {origin : Option Station} {s : State}
    (h : expiryDue k source origin s = true) :
    Instr.overrideExpiry k source origin ∈ stackExpiries k (stackOf s.overrides k) := by
  simp only [expiryDue, sameIdentity, Bool.and_eq_true, List.any_eq_true, decide_eq_true_eq] at h
  obtain ⟨-, e, he, ⟨rfl, rfl⟩, -⟩ := h
  exact List.mem_map.mpr ⟨e, he, rfl⟩

/-- Every timer event that is due is among those the station can have. -/
theorem mem_timerEvents_of_isDue {s : State} {c : Instr} (h : isDue s c = true) : c ∈ timerEvents s := by
  unfold timerEvents
  simp only [List.flatten_cons, List.flatten_nil, List.mem_append]
  cases c with
  | overrideExpiry k source origin =>
    have := mem_stackExpiries_of_due h
    cases k <;> simp only [stackOf] at this <;> simp only [this, true_or, or_true]
  | doorSettlingEnds d isOpen isPresent =>
    have : Instr.doorSettlingEnds d isOpen isPresent ∈ debounceEvents s := by
      simp only [debounceEvents, List.flatten_cons, List.mem_append, List.mem_map, List.mem_finRange, true_and]
      exact .inr (.inl ⟨d, settlingCommand_of_due h⟩)
    simp only [this, true_or, or_true]
  | doorContactChange d isOpen event =>
    cases event with
    | raw => simp [isDue] at h
    | stable =>
      have : Instr.doorContactChange d isOpen .stable ∈ debounceEvents s := by
        simp only [debounceEvents, List.flatten_cons, List.mem_append, List.mem_map, List.mem_finRange, true_and]
        exact .inr (.inr (.inl ⟨d, contactCommand_of_due h⟩))
      simp only [this, true_or, or_true]
  | doorTrailerChange d isPresent event =>
    cases event with
    | raw => simp [isDue] at h
    | stable =>
      have : Instr.doorTrailerChange d isPresent .stable ∈ debounceEvents s := by
        simp only [debounceEvents, List.flatten_cons, List.mem_append, List.mem_map, List.mem_finRange, true_and]
        exact .inr (.inr (.inr (.inl ⟨d, trailerCommand_of_due h⟩)))
      simp only [this, true_or, or_true]
  | shiftInputChange pressed event =>
    cases event with
    | raw => simp [isDue] at h
    | stable =>
      have hp : s.shift.input.raw = pressed := by
        simp only [isDue, shiftInputAdmits, Debounced.admits, Debounced.held, Bool.and_eq_true, decide_eq_true_eq] at h
        exact h.2.2.1
      have : Instr.shiftInputChange pressed .stable ∈ debounceEvents s := by
        simp [debounceEvents, hp]
      simp only [this, true_or, or_true]
  | manualAsserted event =>
    cases event with
    | raw => simp [isDue] at h
    | stable =>
      have : Instr.manualAsserted .stable ∈ debounceEvents s := by simp [debounceEvents]
      simp only [this, true_or, or_true]
  | manualReleased event =>
    cases event with
    | raw => simp [isDue] at h
    | stable =>
      have : Instr.manualReleased .stable ∈ debounceEvents s := by simp [debounceEvents]
      simp only [this, true_or, or_true]
  | entryStale _ | entryLost _ | zoneHoldExpiry _ | doorHoldExpiry _ | doorFaultClear _ | openSecondsAdvance _ | stageMinOnExpiry _
  | stageMinOffExpiry _ | coastTimerExpiry _ | rampTimerExpiry _ | levelRiseStep _ =>
    simp only [List.mem_map, List.mem_finRange, true_and, exists_apply_eq_apply, true_or, or_true]
  | listenTimerExpiry | isolationTimerExpiry | changeoverTimerExpiry | lockoutTimerExpiry | beaconScheduling | gateFaultClear
  | vacancyCorrection | leadInTimerExpiry | vacatingTimerExpiry | boostRecoveryExpiry | pendingIncreaseExpiry | meterCheck =>
    simp only [List.mem_cons, true_or, or_true]
  | _ => exact absurd h (by simp [isDue])

/-- What the tick queues: exactly the commands that are due. -/
theorem mem_dueCommands (s : State) (c : Instr) : c ∈ dueCommands s ↔ isDue s c = true := by
  simp only [dueCommands, List.mem_filter]
  exact ⟨fun h => h.2, fun h => ⟨mem_timerEvents_of_isDue h, h⟩⟩

end Sys2Proof.Machine
end

