-- ==== Sys2Proof/Laws/Lists.lean ====
section
/-! SUPPORT. What the two list operations of the machine can do. -/

namespace Sys2Proof.Machine

variable {α β γ : Type}

@[simp] theorem updateAt_nil (i : Nat) (f : α → α) : updateAt i f [] = [] := rfl

@[simp] theorem updateAt_length (i : Nat) (f : α → α) (l : List α) : (updateAt i f l).length = l.length := by
  induction l generalizing i with
  | nil => rfl
  | cons x xs ih => by_cases h : i = 0 <;> simp [updateAt, h, ih]

/-- Element `j` after a change of element `i`. -/
theorem updateAt_getElem? (i j : Nat) (f : α → α) (l : List α) :
    (updateAt i f l)[j]? = if j = i then l[j]?.map f else l[j]? := by
  induction l generalizing i j with
  | nil => simp
  | cons x xs ih =>
    by_cases h : i = 0
    · subst h
      cases j <;> simp [updateAt]
    · obtain ⟨k, rfl⟩ := Nat.exists_eq_succ_of_ne_zero h
      cases j with
      | zero => simp [updateAt]
      | succ n => simp [updateAt, ih]

/-- An element after the change is a changed element or an element of the list. -/
theorem mem_updateAt {i : Nat} {f : α → α} {l : List α} {y : α} (h : y ∈ updateAt i f l) :
    y ∈ l ∨ ∃ x ∈ l, y = f x := by
  obtain ⟨j, hj⟩ := List.getElem?_of_mem h
  rw [updateAt_getElem?] at hj
  split at hj
  · obtain ⟨x, hx, rfl⟩ := Option.map_eq_some_iff.mp hj
    exact .inr ⟨x, List.mem_of_getElem? hx, rfl⟩
  · exact .inl (List.mem_of_getElem? hj)

/-- A view that the change keeps at every element is kept of the list. -/
theorem updateAt_map (g : α → γ) (i : Nat) (f : α → α) (l : List α) (h : ∀ x ∈ l, g (f x) = g x) :
    (updateAt i f l).map g = l.map g := by
  induction l generalizing i with
  | nil => rfl
  | cons x xs ih =>
    by_cases hi : i = 0
    · simp [updateAt, hi, h x (by simp)]
    · simp [updateAt, hi, ih _ fun y hy => h y (by simp [hy])]

@[simp] theorem alongside_length (f : α → β → α) (xs : List α) (ys : List β) : (alongside f xs ys).length = xs.length := by
  induction xs generalizing ys with
  | nil => cases ys <;> rfl
  | cons x xs ih => cases ys <;> simp [alongside, ih]

/-- Element `j` of two lists taken side by side. -/
theorem alongside_getElem? (f : α → β → α) (xs : List α) (ys : List β) (j : Nat) :
    (alongside f xs ys)[j]? = xs[j]?.map (fun x => match ys[j]? with | some y => f x y | none => x) := by
  induction xs generalizing ys j with
  | nil => cases ys <;> simp [alongside]
  | cons x xs ih =>
    cases ys with
    | nil => cases h : (x :: xs)[j]? <;> simp [alongside, h]
    | cons y ys => cases j <;> simp [alongside, ih]

/-- A view that every change keeps is kept of the list. -/
theorem alongside_map (g : α → γ) (f : α → β → α) (h : ∀ x y, g (f x y) = g x) (xs : List α) (ys : List β) :
    (alongside f xs ys).map g = xs.map g := by
  induction xs generalizing ys with
  | nil => cases ys <;> rfl
  | cons x xs ih => cases ys <;> simp [alongside, h, ih]

/-- An element after the change is an element of the list or a changed one. -/
theorem mem_alongside {f : α → β → α} {xs : List α} {ys : List β} {z : α} (h : z ∈ alongside f xs ys) :
    z ∈ xs ∨ ∃ x ∈ xs, ∃ y ∈ ys, z = f x y := by
  obtain ⟨j, hj⟩ := List.getElem?_of_mem h
  rw [alongside_getElem?] at hj
  obtain ⟨x, hx, rfl⟩ := Option.map_eq_some_iff.mp hj
  cases hy : ys[j]? with
  | none => exact .inl (List.mem_of_getElem? (by simpa [hy] using hx))
  | some y => exact .inr ⟨x, List.mem_of_getElem? hx, y, List.mem_of_getElem? hy, rfl⟩

end Sys2Proof.Machine
end

