-- ==== Sys2Proof/Laws/State.lean ====
section
/-! SUPPORT. One lemma per field per update of one block: what an update writes and what it leaves. -/

namespace Sys2Proof.Machine

@[simp] theorem State.setPending_pending (s : State) (b : List Instr) : (s.setPending b).pending = b := rfl
@[simp] theorem State.setPending_clock (s : State) (b : List Instr) : (s.setPending b).clock = s.clock := rfl
@[simp] theorem State.setPending_start (s : State) (b : List Instr) : (s.setPending b).start = s.start := rfl
@[simp] theorem State.setPending_line (s : State) (b : List Instr) : (s.setPending b).line = s.line := rfl
@[simp] theorem State.setPending_view (s : State) (b : List Instr) : (s.setPending b).view = s.view := rfl
@[simp] theorem State.setPending_shift (s : State) (b : List Instr) : (s.setPending b).shift = s.shift := rfl
@[simp] theorem State.setPending_traffic (s : State) (b : List Instr) : (s.setPending b).traffic = s.traffic := rfl
@[simp] theorem State.setPending_lighting (s : State) (b : List Instr) : (s.setPending b).lighting = s.lighting := rfl
@[simp] theorem State.setPending_doors (s : State) (b : List Instr) : (s.setPending b).doors = s.doors := rfl
@[simp] theorem State.setPending_heat (s : State) (b : List Instr) : (s.setPending b).heat = s.heat := rfl
@[simp] theorem State.setPending_air (s : State) (b : List Instr) : (s.setPending b).air = s.air := rfl
@[simp] theorem State.setPending_overrides (s : State) (b : List Instr) : (s.setPending b).overrides = s.overrides := rfl
@[simp] theorem State.setPending_alarms (s : State) (b : List Instr) : (s.setPending b).alarms = s.alarms := rfl
@[simp] theorem State.setPending_alloc (s : State) (b : List Instr) : (s.setPending b).alloc = s.alloc := rfl

@[simp] theorem State.setClock_pending (s : State) (b : Nat) : (s.setClock b).pending = s.pending := rfl
@[simp] theorem State.setClock_clock (s : State) (b : Nat) : (s.setClock b).clock = b := rfl
@[simp] theorem State.setClock_start (s : State) (b : Nat) : (s.setClock b).start = s.start := rfl
@[simp] theorem State.setClock_line (s : State) (b : Nat) : (s.setClock b).line = s.line := rfl
@[simp] theorem State.setClock_view (s : State) (b : Nat) : (s.setClock b).view = s.view := rfl
@[simp] theorem State.setClock_shift (s : State) (b : Nat) : (s.setClock b).shift = s.shift := rfl
@[simp] theorem State.setClock_traffic (s : State) (b : Nat) : (s.setClock b).traffic = s.traffic := rfl
@[simp] theorem State.setClock_lighting (s : State) (b : Nat) : (s.setClock b).lighting = s.lighting := rfl
@[simp] theorem State.setClock_doors (s : State) (b : Nat) : (s.setClock b).doors = s.doors := rfl
@[simp] theorem State.setClock_heat (s : State) (b : Nat) : (s.setClock b).heat = s.heat := rfl
@[simp] theorem State.setClock_air (s : State) (b : Nat) : (s.setClock b).air = s.air := rfl
@[simp] theorem State.setClock_overrides (s : State) (b : Nat) : (s.setClock b).overrides = s.overrides := rfl
@[simp] theorem State.setClock_alarms (s : State) (b : Nat) : (s.setClock b).alarms = s.alarms := rfl
@[simp] theorem State.setClock_alloc (s : State) (b : Nat) : (s.setClock b).alloc = s.alloc := rfl

@[simp] theorem State.setStart_pending (s : State) (b : Start) : (s.setStart b).pending = s.pending := rfl
@[simp] theorem State.setStart_clock (s : State) (b : Start) : (s.setStart b).clock = s.clock := rfl
@[simp] theorem State.setStart_start (s : State) (b : Start) : (s.setStart b).start = b := rfl
@[simp] theorem State.setStart_line (s : State) (b : Start) : (s.setStart b).line = s.line := rfl
@[simp] theorem State.setStart_view (s : State) (b : Start) : (s.setStart b).view = s.view := rfl
@[simp] theorem State.setStart_shift (s : State) (b : Start) : (s.setStart b).shift = s.shift := rfl
@[simp] theorem State.setStart_traffic (s : State) (b : Start) : (s.setStart b).traffic = s.traffic := rfl
@[simp] theorem State.setStart_lighting (s : State) (b : Start) : (s.setStart b).lighting = s.lighting := rfl
@[simp] theorem State.setStart_doors (s : State) (b : Start) : (s.setStart b).doors = s.doors := rfl
@[simp] theorem State.setStart_heat (s : State) (b : Start) : (s.setStart b).heat = s.heat := rfl
@[simp] theorem State.setStart_air (s : State) (b : Start) : (s.setStart b).air = s.air := rfl
@[simp] theorem State.setStart_overrides (s : State) (b : Start) : (s.setStart b).overrides = s.overrides := rfl
@[simp] theorem State.setStart_alarms (s : State) (b : Start) : (s.setStart b).alarms = s.alarms := rfl
@[simp] theorem State.setStart_alloc (s : State) (b : Start) : (s.setStart b).alloc = s.alloc := rfl

@[simp] theorem State.setLine_pending (s : State) (b : Line) : (s.setLine b).pending = s.pending := rfl
@[simp] theorem State.setLine_clock (s : State) (b : Line) : (s.setLine b).clock = s.clock := rfl
@[simp] theorem State.setLine_start (s : State) (b : Line) : (s.setLine b).start = s.start := rfl
@[simp] theorem State.setLine_line (s : State) (b : Line) : (s.setLine b).line = b := rfl
@[simp] theorem State.setLine_view (s : State) (b : Line) : (s.setLine b).view = s.view := rfl
@[simp] theorem State.setLine_shift (s : State) (b : Line) : (s.setLine b).shift = s.shift := rfl
@[simp] theorem State.setLine_traffic (s : State) (b : Line) : (s.setLine b).traffic = s.traffic := rfl
@[simp] theorem State.setLine_lighting (s : State) (b : Line) : (s.setLine b).lighting = s.lighting := rfl
@[simp] theorem State.setLine_doors (s : State) (b : Line) : (s.setLine b).doors = s.doors := rfl
@[simp] theorem State.setLine_heat (s : State) (b : Line) : (s.setLine b).heat = s.heat := rfl
@[simp] theorem State.setLine_air (s : State) (b : Line) : (s.setLine b).air = s.air := rfl
@[simp] theorem State.setLine_overrides (s : State) (b : Line) : (s.setLine b).overrides = s.overrides := rfl
@[simp] theorem State.setLine_alarms (s : State) (b : Line) : (s.setLine b).alarms = s.alarms := rfl
@[simp] theorem State.setLine_alloc (s : State) (b : Line) : (s.setLine b).alloc = s.alloc := rfl

@[simp] theorem State.setView_pending (s : State) (b : View) : (s.setView b).pending = s.pending := rfl
@[simp] theorem State.setView_clock (s : State) (b : View) : (s.setView b).clock = s.clock := rfl
@[simp] theorem State.setView_start (s : State) (b : View) : (s.setView b).start = s.start := rfl
@[simp] theorem State.setView_line (s : State) (b : View) : (s.setView b).line = s.line := rfl
@[simp] theorem State.setView_view (s : State) (b : View) : (s.setView b).view = b := rfl
@[simp] theorem State.setView_shift (s : State) (b : View) : (s.setView b).shift = s.shift := rfl
@[simp] theorem State.setView_traffic (s : State) (b : View) : (s.setView b).traffic = s.traffic := rfl
@[simp] theorem State.setView_lighting (s : State) (b : View) : (s.setView b).lighting = s.lighting := rfl
@[simp] theorem State.setView_doors (s : State) (b : View) : (s.setView b).doors = s.doors := rfl
@[simp] theorem State.setView_heat (s : State) (b : View) : (s.setView b).heat = s.heat := rfl
@[simp] theorem State.setView_air (s : State) (b : View) : (s.setView b).air = s.air := rfl
@[simp] theorem State.setView_overrides (s : State) (b : View) : (s.setView b).overrides = s.overrides := rfl
@[simp] theorem State.setView_alarms (s : State) (b : View) : (s.setView b).alarms = s.alarms := rfl
@[simp] theorem State.setView_alloc (s : State) (b : View) : (s.setView b).alloc = s.alloc := rfl

@[simp] theorem State.setShift_pending (s : State) (b : Shift) : (s.setShift b).pending = s.pending := rfl
@[simp] theorem State.setShift_clock (s : State) (b : Shift) : (s.setShift b).clock = s.clock := rfl
@[simp] theorem State.setShift_start (s : State) (b : Shift) : (s.setShift b).start = s.start := rfl
@[simp] theorem State.setShift_line (s : State) (b : Shift) : (s.setShift b).line = s.line := rfl
@[simp] theorem State.setShift_view (s : State) (b : Shift) : (s.setShift b).view = s.view := rfl
@[simp] theorem State.setShift_shift (s : State) (b : Shift) : (s.setShift b).shift = b := rfl
@[simp] theorem State.setShift_traffic (s : State) (b : Shift) : (s.setShift b).traffic = s.traffic := rfl
@[simp] theorem State.setShift_lighting (s : State) (b : Shift) : (s.setShift b).lighting = s.lighting := rfl
@[simp] theorem State.setShift_doors (s : State) (b : Shift) : (s.setShift b).doors = s.doors := rfl
@[simp] theorem State.setShift_heat (s : State) (b : Shift) : (s.setShift b).heat = s.heat := rfl
@[simp] theorem State.setShift_air (s : State) (b : Shift) : (s.setShift b).air = s.air := rfl
@[simp] theorem State.setShift_overrides (s : State) (b : Shift) : (s.setShift b).overrides = s.overrides := rfl
@[simp] theorem State.setShift_alarms (s : State) (b : Shift) : (s.setShift b).alarms = s.alarms := rfl
@[simp] theorem State.setShift_alloc (s : State) (b : Shift) : (s.setShift b).alloc = s.alloc := rfl

@[simp] theorem State.setTraffic_pending (s : State) (b : Traffic) : (s.setTraffic b).pending = s.pending := rfl
@[simp] theorem State.setTraffic_clock (s : State) (b : Traffic) : (s.setTraffic b).clock = s.clock := rfl
@[simp] theorem State.setTraffic_start (s : State) (b : Traffic) : (s.setTraffic b).start = s.start := rfl
@[simp] theorem State.setTraffic_line (s : State) (b : Traffic) : (s.setTraffic b).line = s.line := rfl
@[simp] theorem State.setTraffic_view (s : State) (b : Traffic) : (s.setTraffic b).view = s.view := rfl
@[simp] theorem State.setTraffic_shift (s : State) (b : Traffic) : (s.setTraffic b).shift = s.shift := rfl
@[simp] theorem State.setTraffic_traffic (s : State) (b : Traffic) : (s.setTraffic b).traffic = b := rfl
@[simp] theorem State.setTraffic_lighting (s : State) (b : Traffic) : (s.setTraffic b).lighting = s.lighting := rfl
@[simp] theorem State.setTraffic_doors (s : State) (b : Traffic) : (s.setTraffic b).doors = s.doors := rfl
@[simp] theorem State.setTraffic_heat (s : State) (b : Traffic) : (s.setTraffic b).heat = s.heat := rfl
@[simp] theorem State.setTraffic_air (s : State) (b : Traffic) : (s.setTraffic b).air = s.air := rfl
@[simp] theorem State.setTraffic_overrides (s : State) (b : Traffic) : (s.setTraffic b).overrides = s.overrides := rfl
@[simp] theorem State.setTraffic_alarms (s : State) (b : Traffic) : (s.setTraffic b).alarms = s.alarms := rfl
@[simp] theorem State.setTraffic_alloc (s : State) (b : Traffic) : (s.setTraffic b).alloc = s.alloc := rfl

@[simp] theorem State.setLighting_pending (s : State) (b : Lighting) : (s.setLighting b).pending = s.pending := rfl
@[simp] theorem State.setLighting_clock (s : State) (b : Lighting) : (s.setLighting b).clock = s.clock := rfl
@[simp] theorem State.setLighting_start (s : State) (b : Lighting) : (s.setLighting b).start = s.start := rfl
@[simp] theorem State.setLighting_line (s : State) (b : Lighting) : (s.setLighting b).line = s.line := rfl
@[simp] theorem State.setLighting_view (s : State) (b : Lighting) : (s.setLighting b).view = s.view := rfl
@[simp] theorem State.setLighting_shift (s : State) (b : Lighting) : (s.setLighting b).shift = s.shift := rfl
@[simp] theorem State.setLighting_traffic (s : State) (b : Lighting) : (s.setLighting b).traffic = s.traffic := rfl
@[simp] theorem State.setLighting_lighting (s : State) (b : Lighting) : (s.setLighting b).lighting = b := rfl
@[simp] theorem State.setLighting_doors (s : State) (b : Lighting) : (s.setLighting b).doors = s.doors := rfl
@[simp] theorem State.setLighting_heat (s : State) (b : Lighting) : (s.setLighting b).heat = s.heat := rfl
@[simp] theorem State.setLighting_air (s : State) (b : Lighting) : (s.setLighting b).air = s.air := rfl
@[simp] theorem State.setLighting_overrides (s : State) (b : Lighting) : (s.setLighting b).overrides = s.overrides := rfl
@[simp] theorem State.setLighting_alarms (s : State) (b : Lighting) : (s.setLighting b).alarms = s.alarms := rfl
@[simp] theorem State.setLighting_alloc (s : State) (b : Lighting) : (s.setLighting b).alloc = s.alloc := rfl

@[simp] theorem State.setDoors_pending (s : State) (b : Doors) : (s.setDoors b).pending = s.pending := rfl
@[simp] theorem State.setDoors_clock (s : State) (b : Doors) : (s.setDoors b).clock = s.clock := rfl
@[simp] theorem State.setDoors_start (s : State) (b : Doors) : (s.setDoors b).start = s.start := rfl
@[simp] theorem State.setDoors_line (s : State) (b : Doors) : (s.setDoors b).line = s.line := rfl
@[simp] theorem State.setDoors_view (s : State) (b : Doors) : (s.setDoors b).view = s.view := rfl
@[simp] theorem State.setDoors_shift (s : State) (b : Doors) : (s.setDoors b).shift = s.shift := rfl
@[simp] theorem State.setDoors_traffic (s : State) (b : Doors) : (s.setDoors b).traffic = s.traffic := rfl
@[simp] theorem State.setDoors_lighting (s : State) (b : Doors) : (s.setDoors b).lighting = s.lighting := rfl
@[simp] theorem State.setDoors_doors (s : State) (b : Doors) : (s.setDoors b).doors = b := rfl
@[simp] theorem State.setDoors_heat (s : State) (b : Doors) : (s.setDoors b).heat = s.heat := rfl
@[simp] theorem State.setDoors_air (s : State) (b : Doors) : (s.setDoors b).air = s.air := rfl
@[simp] theorem State.setDoors_overrides (s : State) (b : Doors) : (s.setDoors b).overrides = s.overrides := rfl
@[simp] theorem State.setDoors_alarms (s : State) (b : Doors) : (s.setDoors b).alarms = s.alarms := rfl
@[simp] theorem State.setDoors_alloc (s : State) (b : Doors) : (s.setDoors b).alloc = s.alloc := rfl

@[simp] theorem State.setHeat_pending (s : State) (b : Heat) : (s.setHeat b).pending = s.pending := rfl
@[simp] theorem State.setHeat_clock (s : State) (b : Heat) : (s.setHeat b).clock = s.clock := rfl
@[simp] theorem State.setHeat_start (s : State) (b : Heat) : (s.setHeat b).start = s.start := rfl
@[simp] theorem State.setHeat_line (s : State) (b : Heat) : (s.setHeat b).line = s.line := rfl
@[simp] theorem State.setHeat_view (s : State) (b : Heat) : (s.setHeat b).view = s.view := rfl
@[simp] theorem State.setHeat_shift (s : State) (b : Heat) : (s.setHeat b).shift = s.shift := rfl
@[simp] theorem State.setHeat_traffic (s : State) (b : Heat) : (s.setHeat b).traffic = s.traffic := rfl
@[simp] theorem State.setHeat_lighting (s : State) (b : Heat) : (s.setHeat b).lighting = s.lighting := rfl
@[simp] theorem State.setHeat_doors (s : State) (b : Heat) : (s.setHeat b).doors = s.doors := rfl
@[simp] theorem State.setHeat_heat (s : State) (b : Heat) : (s.setHeat b).heat = b := rfl
@[simp] theorem State.setHeat_air (s : State) (b : Heat) : (s.setHeat b).air = s.air := rfl
@[simp] theorem State.setHeat_overrides (s : State) (b : Heat) : (s.setHeat b).overrides = s.overrides := rfl
@[simp] theorem State.setHeat_alarms (s : State) (b : Heat) : (s.setHeat b).alarms = s.alarms := rfl
@[simp] theorem State.setHeat_alloc (s : State) (b : Heat) : (s.setHeat b).alloc = s.alloc := rfl

@[simp] theorem State.setAir_pending (s : State) (b : Air) : (s.setAir b).pending = s.pending := rfl
@[simp] theorem State.setAir_clock (s : State) (b : Air) : (s.setAir b).clock = s.clock := rfl
@[simp] theorem State.setAir_start (s : State) (b : Air) : (s.setAir b).start = s.start := rfl
@[simp] theorem State.setAir_line (s : State) (b : Air) : (s.setAir b).line = s.line := rfl
@[simp] theorem State.setAir_view (s : State) (b : Air) : (s.setAir b).view = s.view := rfl
@[simp] theorem State.setAir_shift (s : State) (b : Air) : (s.setAir b).shift = s.shift := rfl
@[simp] theorem State.setAir_traffic (s : State) (b : Air) : (s.setAir b).traffic = s.traffic := rfl
@[simp] theorem State.setAir_lighting (s : State) (b : Air) : (s.setAir b).lighting = s.lighting := rfl
@[simp] theorem State.setAir_doors (s : State) (b : Air) : (s.setAir b).doors = s.doors := rfl
@[simp] theorem State.setAir_heat (s : State) (b : Air) : (s.setAir b).heat = s.heat := rfl
@[simp] theorem State.setAir_air (s : State) (b : Air) : (s.setAir b).air = b := rfl
@[simp] theorem State.setAir_overrides (s : State) (b : Air) : (s.setAir b).overrides = s.overrides := rfl
@[simp] theorem State.setAir_alarms (s : State) (b : Air) : (s.setAir b).alarms = s.alarms := rfl
@[simp] theorem State.setAir_alloc (s : State) (b : Air) : (s.setAir b).alloc = s.alloc := rfl

@[simp] theorem State.setOverrides_pending (s : State) (b : Overrides) : (s.setOverrides b).pending = s.pending := rfl
@[simp] theorem State.setOverrides_clock (s : State) (b : Overrides) : (s.setOverrides b).clock = s.clock := rfl
@[simp] theorem State.setOverrides_start (s : State) (b : Overrides) : (s.setOverrides b).start = s.start := rfl
@[simp] theorem State.setOverrides_line (s : State) (b : Overrides) : (s.setOverrides b).line = s.line := rfl
@[simp] theorem State.setOverrides_view (s : State) (b : Overrides) : (s.setOverrides b).view = s.view := rfl
@[simp] theorem State.setOverrides_shift (s : State) (b : Overrides) : (s.setOverrides b).shift = s.shift := rfl
@[simp] theorem State.setOverrides_traffic (s : State) (b : Overrides) : (s.setOverrides b).traffic = s.traffic := rfl
@[simp] theorem State.setOverrides_lighting (s : State) (b : Overrides) : (s.setOverrides b).lighting = s.lighting := rfl
@[simp] theorem State.setOverrides_doors (s : State) (b : Overrides) : (s.setOverrides b).doors = s.doors := rfl
@[simp] theorem State.setOverrides_heat (s : State) (b : Overrides) : (s.setOverrides b).heat = s.heat := rfl
@[simp] theorem State.setOverrides_air (s : State) (b : Overrides) : (s.setOverrides b).air = s.air := rfl
@[simp] theorem State.setOverrides_overrides (s : State) (b : Overrides) : (s.setOverrides b).overrides = b := rfl
@[simp] theorem State.setOverrides_alarms (s : State) (b : Overrides) : (s.setOverrides b).alarms = s.alarms := rfl
@[simp] theorem State.setOverrides_alloc (s : State) (b : Overrides) : (s.setOverrides b).alloc = s.alloc := rfl

@[simp] theorem State.setAlarms_pending (s : State) (b : Alarms) : (s.setAlarms b).pending = s.pending := rfl
@[simp] theorem State.setAlarms_clock (s : State) (b : Alarms) : (s.setAlarms b).clock = s.clock := rfl
@[simp] theorem State.setAlarms_start (s : State) (b : Alarms) : (s.setAlarms b).start = s.start := rfl
@[simp] theorem State.setAlarms_line (s : State) (b : Alarms) : (s.setAlarms b).line = s.line := rfl
@[simp] theorem State.setAlarms_view (s : State) (b : Alarms) : (s.setAlarms b).view = s.view := rfl
@[simp] theorem State.setAlarms_shift (s : State) (b : Alarms) : (s.setAlarms b).shift = s.shift := rfl
@[simp] theorem State.setAlarms_traffic (s : State) (b : Alarms) : (s.setAlarms b).traffic = s.traffic := rfl
@[simp] theorem State.setAlarms_lighting (s : State) (b : Alarms) : (s.setAlarms b).lighting = s.lighting := rfl
@[simp] theorem State.setAlarms_doors (s : State) (b : Alarms) : (s.setAlarms b).doors = s.doors := rfl
@[simp] theorem State.setAlarms_heat (s : State) (b : Alarms) : (s.setAlarms b).heat = s.heat := rfl
@[simp] theorem State.setAlarms_air (s : State) (b : Alarms) : (s.setAlarms b).air = s.air := rfl
@[simp] theorem State.setAlarms_overrides (s : State) (b : Alarms) : (s.setAlarms b).overrides = s.overrides := rfl
@[simp] theorem State.setAlarms_alarms (s : State) (b : Alarms) : (s.setAlarms b).alarms = b := rfl
@[simp] theorem State.setAlarms_alloc (s : State) (b : Alarms) : (s.setAlarms b).alloc = s.alloc := rfl

@[simp] theorem State.setAlloc_pending (s : State) (b : Alloc) : (s.setAlloc b).pending = s.pending := rfl
@[simp] theorem State.setAlloc_clock (s : State) (b : Alloc) : (s.setAlloc b).clock = s.clock := rfl
@[simp] theorem State.setAlloc_start (s : State) (b : Alloc) : (s.setAlloc b).start = s.start := rfl
@[simp] theorem State.setAlloc_line (s : State) (b : Alloc) : (s.setAlloc b).line = s.line := rfl
@[simp] theorem State.setAlloc_view (s : State) (b : Alloc) : (s.setAlloc b).view = s.view := rfl
@[simp] theorem State.setAlloc_shift (s : State) (b : Alloc) : (s.setAlloc b).shift = s.shift := rfl
@[simp] theorem State.setAlloc_traffic (s : State) (b : Alloc) : (s.setAlloc b).traffic = s.traffic := rfl
@[simp] theorem State.setAlloc_lighting (s : State) (b : Alloc) : (s.setAlloc b).lighting = s.lighting := rfl
@[simp] theorem State.setAlloc_doors (s : State) (b : Alloc) : (s.setAlloc b).doors = s.doors := rfl
@[simp] theorem State.setAlloc_heat (s : State) (b : Alloc) : (s.setAlloc b).heat = s.heat := rfl
@[simp] theorem State.setAlloc_air (s : State) (b : Alloc) : (s.setAlloc b).air = s.air := rfl
@[simp] theorem State.setAlloc_overrides (s : State) (b : Alloc) : (s.setAlloc b).overrides = s.overrides := rfl
@[simp] theorem State.setAlloc_alarms (s : State) (b : Alloc) : (s.setAlloc b).alarms = s.alarms := rfl
@[simp] theorem State.setAlloc_alloc (s : State) (b : Alloc) : (s.setAlloc b).alloc = b := rfl

end Sys2Proof.Machine
end

