-- ==== Sys2Proof/Laws/Stages.lean ====
section
/-! SUPPORT. What the end of an event does to the heater stages: when a since-time may move, and that every stage is left
switched as its demand, its grant and its times require. -/

namespace Sys2Proof.Machine

/-! ## Since-times -/

/-- A stage stands as it did, or it was switched now, and one that has gone off stays off. -/
def SwitchStep (now : Nat) (a b : Stage) : Prop :=
  (b.on = a.on ∧ b.since = a.since) ∨ (b.since = now ∧ (a.on = true → b.on = false) ∧ (a.since = now → b.on = false))

/-- The stages of `l'` are those of `l`, each as it was or switched now. -/
def SwitchedNow (now : Nat) (l l' : List Stage) : Prop := List.Forall₂ (SwitchStep now) l l'

theorem SwitchedNow.refl (now : Nat) (l : List Stage) : SwitchedNow now l l := by
  induction l with
  | nil => exact .nil
  | cons x xs ih => exact .cons (.inl ⟨rfl, rfl⟩) ih

theorem SwitchedNow.trans {now : Nat} {a b c : List Stage} (h : SwitchedNow now a b) (k : SwitchedNow now b c) :
    SwitchedNow now a c := by
  induction h generalizing c with
  | nil => cases k; exact .nil
  | cons h1 _ ih =>
    cases k with
    | cons k1 ks =>
      refine .cons ?_ (ih ks)
      rcases k1 with ⟨k2, k3⟩ | ⟨k2, k3, k4⟩
      · rcases h1 with ⟨h2, h3⟩ | ⟨h2, h3, h4⟩
        · exact .inl ⟨k2.trans h2, k3.trans h3⟩
        · exact .inr ⟨k3.trans h2, fun x => k2.trans (h3 x), fun x => k2.trans (h4 x)⟩
      · rcases h1 with ⟨h2, h3⟩ | ⟨h2, h3, h4⟩
        · exact .inr ⟨k2, fun x => k3 (h2.trans x), fun x => k4 (h3.trans x)⟩
        · exact .inr ⟨k2, fun _ => k4 h2, fun _ => k4 h2⟩

theorem formStages_switched (now : Nat) (w hold : Bool) (h : Heat) (k : Nat) (cs : List StageConfig) (sts : List Stage) :
    SwitchedNow now sts (formStages now w hold h k cs sts) := by
  induction cs generalizing k sts with
  | nil => cases sts <;> exact .refl _ _
  | cons c cs ih =>
    cases sts with
    | nil => exact .refl _ _
    | cons st sts =>
      refine .cons ?_ (ih _ _)
      unfold formStage
      cases stageCall w hold h k st.call with
      | called t => exact .inl ⟨rfl, rfl⟩
      | released i =>
        dsimp only
        (repeat' split) <;> first | exact .inl ⟨rfl, rfl⟩ | exact .inr ⟨rfl, fun _ => rfl, fun _ => rfl⟩

theorem switchStages_switched (now : Nat) (cs : List StageConfig) (sts : List Stage) (hp : ∀ c ∈ cs, 0 < c.minOff) :
    SwitchedNow now sts (switchStages now cs sts) := by
  induction cs generalizing sts with
  | nil => cases sts <;> exact .refl _ _
  | cons c cs ih =>
    cases sts with
    | nil => exact .refl _ _
    | cons st sts =>
      refine .cons ?_ (ih _ fun x hx => hp x (by simp [hx]))
      have hc := hp c (by simp)
      unfold switchStage minOffElapsed
      split
      · exact .inr ⟨rfl, fun _ => rfl, fun _ => rfl⟩
      · split
        · rename_i h
          simp only [Bool.and_eq_true, Bool.not_eq_true', decide_eq_true_eq] at h
          refine .inr ⟨rfl, fun h1 => ?_, fun h1 => ?_⟩
          · simp [h.1.1.1] at h1
          · omega
        · exact .inl ⟨rfl, rfl⟩

theorem grantStages_switched (now : Nat) (sts : List Stage) (g : List Nat) :
    SwitchedNow now sts (alongside (fun (st : Stage) x => { st with granted := decide (x ≠ 0) }) sts g) := by
  induction sts generalizing g with
  | nil => cases g <;> exact .nil
  | cons st sts ih =>
    cases g with
    | nil => exact .refl _ _
    | cons x xs => exact .cons (.inl ⟨rfl, rfl⟩) (ih xs)

theorem judgeCallsFrom_switched (now : Nat) (c : HeatConfig) (f : Bool) (l : Option Int) (e : Int) (k : Nat)
    (sts : List Stage) : SwitchedNow now sts (judgeCallsFrom c f l e k sts) := by
  induction sts generalizing k with
  | nil => exact .nil
  | cons st sts ih => exact .cons (.inl ⟨rfl, rfl⟩) (ih _)

/-! ## Single stages -/

/-- Stage `k` after the demands are formed (R113). -/
theorem formStages_getElem? (now : Nat) (w hold : Bool) (h : Heat) (k0 k : Nat) (cs : List StageConfig) (sts : List Stage)
    (c : StageConfig) (hc : cs[k]? = some c) :
    (formStages now w hold h k0 cs sts)[k]? =
      sts[k]?.map fun st => formStage now c (stageCall w hold h (k0 + k) st.call) st := by
  induction cs generalizing k0 k sts with
  | nil => simp at hc
  | cons c' cs ih =>
    cases sts with
    | nil => simp [formStages]
    | cons st sts =>
      cases k with
      | zero =>
        simp only [List.getElem?_cons_zero, Option.some.injEq] at hc
        subst hc
        simp [formStages]
      | succ n =>
        simp only [List.getElem?_cons_succ] at hc
        simp [formStages, ih (k0 + 1) n sts hc, Nat.add_assoc, Nat.add_comm 1 n]

/-- Stage `k` after the stages are switched (R115, R116). -/
theorem switchStages_getElem? (now k : Nat) (cs : List StageConfig) (sts : List Stage) (c : StageConfig)
    (hc : cs[k]? = some c) : (switchStages now cs sts)[k]? = sts[k]?.map (switchStage now c) := by
  induction cs generalizing k sts with
  | nil => simp at hc
  | cons c' cs ih =>
    cases sts with
    | nil => simp [switchStages]
    | cons st sts =>
      cases k with
      | zero =>
        simp only [List.getElem?_cons_zero, Option.some.injEq] at hc
        subst hc
        simp [switchStages]
      | succ n =>
        simp only [List.getElem?_cons_succ] at hc
        simp [switchStages, ih n sts hc]

/-! ## Demands formed, stages settled -/

/-- The row of Table 25 that applies to stage `k` with threshold call `call`. -/
def stageRow (s : State) (k : Nat) (call : Bool) : StageCall :=
  stageCall (isWorking s) (holdRules (rulingEffect s.overrides.heat)) s.heat k call

/-- Every stage whose row calls it is CALLED. -/
def CallsFormed (s : State) : Prop :=
  ∀ (k : Nat) (c : StageConfig) (st : Stage), s.cfg.heat.stages[k]? = some c → s.heat.stages[k]? = some st →
    ∀ t, stageRow s k st.call = .called t → st.demand = .called

/-- Every stage is settled at the state's moment. -/
def StagesSettled (s : State) : Prop :=
  ∀ (k : Nat) (c : StageConfig) (st : Stage), s.cfg.heat.stages[k]? = some c → s.heat.stages[k]? = some st →
    StageSettled s.clock c st

theorem formStage_call (now : Nat) (c : StageConfig) (row : StageCall) (st : Stage) :
    (formStage now c row st).call = st.call := by
  unfold formStage
  cases row
  · rfl
  · dsimp only
    (repeat' split) <;> rfl

theorem settleStages_formed (s : State) : CallsFormed (settleStages s) := by
  intro k c st hc hst t ht
  have h := formStages_getElem? s.clock (isWorking s) (holdRules (rulingEffect s.overrides.heat)) s.heat 0 k
    s.cfg.heat.stages s.heat.stages c hc
  have hst' : (formStages s.clock (isWorking s) (holdRules (rulingEffect s.overrides.heat)) s.heat 0
    s.cfg.heat.stages s.heat.stages)[k]? = some st := hst
  rw [h] at hst'
  obtain ⟨x, -, rfl⟩ := Option.map_eq_some_iff.mp hst'
  have hrow : stageRow s k x.call = .called t := by
    rw [formStage_call] at ht
    exact ht
  have hr : stageCall (isWorking s) (holdRules (rulingEffect s.overrides.heat)) s.heat (0 + k) x.call = .called t := by
    rw [Nat.zero_add]
    exact hrow
  rw [hr]
  rfl

theorem allocate_formed (work : Work) (s : State) (h : CallsFormed s) : CallsFormed (allocate work s) := by
  have hr : ∀ u : State, CallsFormed u → CallsFormed (realise u) := by
    intro u hu k c st hc hst t ht
    have hst' : (alongside (fun (st : Stage) x => { st with granted := decide (x ≠ 0) }) u.heat.stages
      ((((grantedSettings u).drop u.lighting.channels.length).drop u.lighting.docks.length).drop 2 |>.drop
        u.doors.records.length))[k]? = some st := hst
    rw [alongside_getElem?] at hst'
    obtain ⟨x, hx, hxe⟩ := Option.map_eq_some_iff.mp hst'
    have hcall : st.call = x.call := by rw [← hxe]; split <;> rfl
    have hdem : st.demand = x.demand := by rw [← hxe]; split <;> rfl
    rw [hdem]
    exact hu k c x hc hx t (by rw [hcall] at ht; exact ht)
  have hc : ∀ u : State, CallsFormed u → CallsFormed (recompute u) := by
    intro u hu k c st hc hst t ht
    by_cases hj : u.view.link = .joined <;>
      simp only [recompute, State.setAlloc_view, hj, if_true, if_false] at hc hst ht <;>
      exact hu k c st hc hst t ht
  cases work with
  | none => exact h
  | realise => exact hr s h
  | recompute => exact hr _ (hc s h)

/-- A stage switched as its grant and times require, then its demand formed, is settled. -/
theorem stage_settled (now : Nat) (c : StageConfig) (row : StageCall) (st : Stage)
    (h : ∀ t, row = .called t → st.demand = .called) : StageSettled now c (formStage now c row (switchStage now c st)) := by
  have hd : (switchStage now c st).demand = st.demand := by unfold switchStage; (repeat' split) <;> rfl
  have h1 : ¬((switchStage now c st).on = true ∧ (switchStage now c st).granted = false) := by
    unfold switchStage
    rcases st with ⟨on, since, call, demand, tier, granted⟩
    cases on <;> cases granted <;> simp
    split <;> simp
  have h2 : (switchStage now c st).on = false → (switchStage now c st).granted = true →
      st.demand = .called → ¬(switchStage now c st).since + c.minOff * 1000 ≤ now := by
    unfold switchStage minOffElapsed
    rcases st with ⟨on, since, call, demand, tier, granted⟩
    cases on <;> cases granted <;> simp
    split <;> simp_all
  revert hd h1 h2
  generalize switchStage now c st = x
  intro hd h1 h2
  unfold StageSettled
  cases row with
  | called t =>
    simp only [formStage]
    have := h t rfl
    refine ⟨?_, h1, by simp⟩
    rintro ⟨a, -, b, d⟩
    exact h2 a b this d
  | released i =>
    simp only [formStage]
    split
    · simp [noDemand, *]
    · split
      · simp [noDemand]
      · rename_i hon hel
        simp only [minOnElapsed, Bool.or_eq_true, decide_eq_true_eq, not_or] at hel
        refine ⟨by simp, h1, ?_⟩
        simp only [not_and]
        intro _ _
        exact hel.2

/-- The stages after the owners have driven their outputs: switched, then their demands formed (R115, R116, R113). -/
theorem driveOwners_stages (s : State) : (driveOwners s).heat.stages =
    formStages s.clock (isWorking s) (holdRules (rulingEffect s.overrides.heat))
      { s.heat with stages := switchStages s.clock s.cfg.heat.stages s.heat.stages } 0 s.cfg.heat.stages
      (switchStages s.clock s.cfg.heat.stages s.heat.stages) := by
  simp [driveOwners, settleStages, driveStages, driveFans, driveCurtains, driveLights, isWorking, currentPage]

theorem driveOwners_start (s : State) : (driveOwners s).start = s.start := by
  simp [driveOwners, settleStages, driveStages, driveFans, driveCurtains, driveLights]

theorem driveOwners_clock (s : State) : (driveOwners s).clock = s.clock := by
  simp [driveOwners, settleStages, driveStages, driveFans, driveCurtains, driveLights]

theorem driveOwners_settled (s : State) (h : CallsFormed s) : StagesSettled (driveOwners s) := by
  intro k c st hc hst
  rw [State.cfg, driveOwners_start] at hc
  rw [driveOwners_stages, formStages_getElem? _ _ _ _ 0 k _ _ c hc, switchStages_getElem? _ _ _ _ c hc,
    Option.map_map] at hst
  obtain ⟨x, hx, rfl⟩ := Option.map_eq_some_iff.mp hst
  rw [driveOwners_clock]
  apply stage_settled
  intro t ht
  have hcall : (switchStage s.clock c x).call = x.call := by unfold switchStage; (repeat' split) <;> rfl
  refine h k c x hc hx t ?_
  rw [hcall, Nat.zero_add] at ht
  exact ht

theorem driveOwners_formed (s : State) : CallsFormed (driveOwners s) := settleStages_formed _

theorem driveOwners_switched (s : State) (hp : ∀ c ∈ s.cfg.heat.stages, 0 < c.minOff) : SwitchedNow s.clock s.heat.stages (driveOwners s).heat.stages := by
  rw [driveOwners_stages]
  exact (switchStages_switched _ _ _ hp).trans (formStages_switched _ _ _ _ _ _ _)

theorem recompute_heat (s : State) : (recompute s).heat = s.heat := by unfold recompute; simp

theorem recompute_clock (s : State) : (recompute s).clock = s.clock := by unfold recompute; simp

theorem realise_switched (s : State) : SwitchedNow s.clock s.heat.stages (realise s).heat.stages := by
  unfold realise
  generalize grantedSettings s = g
  exact grantStages_switched _ _ _

theorem realise_start (s : State) : (realise s).start = s.start := by
  unfold realise
  generalize grantedSettings s = g
  rfl

theorem recompute_start (s : State) : (recompute s).start = s.start := by unfold recompute; simp

theorem allocate_start (work : Work) (s : State) : (allocate work s).start = s.start := by
  cases work with
  | none => rfl
  | realise => exact realise_start s
  | recompute => exact (realise_start _).trans (recompute_start s)

theorem realise_clock (s : State) : (realise s).clock = s.clock := by
  unfold realise
  generalize grantedSettings s = g
  rfl

theorem allocate_clock (work : Work) (s : State) : (allocate work s).clock = s.clock := by
  cases work with
  | none => rfl
  | realise => exact realise_clock s
  | recompute => exact (realise_clock _).trans (recompute_clock s)

theorem allocate_switched (work : Work) (s : State) : SwitchedNow s.clock s.heat.stages (allocate work s).heat.stages := by
  cases work with
  | none => exact .refl _ _
  | realise => exact realise_switched s
  | recompute =>
    have h := realise_switched (recompute s)
    rw [recompute_heat, recompute_clock] at h
    exact h

/-- The allocator's rounds leave every stage settled, and its switch moves only at this moment. -/
theorem settleLoads_stages (rounds : Nat) (work : Work) (s : State) (h : CallsFormed s) (hr : 0 < rounds) :
    StagesSettled (settleLoads rounds work s) ∧ ((∀ c ∈ s.cfg.heat.stages, 0 < c.minOff) →
      SwitchedNow s.clock s.heat.stages (settleLoads rounds work s).heat.stages) := by
  induction rounds generalizing work s with
  | zero => omega
  | succ n ih =>
    have hd := driveOwners_settled (allocate work s) (allocate_formed work s h)
    have h1 : (∀ c ∈ s.cfg.heat.stages, 0 < c.minOff) →
        SwitchedNow s.clock s.heat.stages (driveOwners (allocate work s)).heat.stages := fun hp =>
      (allocate_switched work s).trans (allocate_clock work s ▸ driveOwners_switched (allocate work s)
        (by rw [State.cfg, allocate_start]; exact hp))
    have hs : (driveOwners (allocate work s)).start = s.start := (driveOwners_start _).trans (allocate_start _ _)
    have hf := driveOwners_formed (allocate work s)
    have hc : (driveOwners (allocate work s)).clock = s.clock := (driveOwners_clock _).trans (allocate_clock _ _)
    unfold settleLoads
    dsimp only
    generalize driveOwners (allocate work s) = d at hd h1 hf hc hs ⊢
    split
    · exact ⟨hd, h1⟩
    · cases n with
      | zero => exact ⟨hd, h1⟩
      | succ m =>
        obtain ⟨h3, h4⟩ := ih .recompute d hf (by omega)
        rw [hc, State.cfg, hs] at h4
        exact ⟨h3, fun hp => (h1 hp).trans (h4 hp)⟩

/-- What the units' publishing leaves of the heater stages. -/
theorem publish_stages (before s : State) :
    CallsFormed (publish before s) ∧ SwitchedNow s.clock s.heat.stages (publish before s).heat.stages := by
  refine ⟨settleStages_formed _, ?_⟩
  have h := fun u : State => formStages_switched s.clock (isWorking u) (holdRules (rulingEffect u.overrides.heat)) u.heat 0
    u.cfg.heat.stages u.heat.stages
  have h0 := h (settleChannels (settleFans (settleSetpoint (settleDoors (settleBay before s)))))
  have hj : SwitchedNow s.clock s.heat.stages
      (settleChannels (settleFans (settleSetpoint (settleDoors (settleBay before s))))).heat.stages := by
    simp only [settleChannels, settleFans, settleSetpoint, settleDoors, settleBay, judgeCalls, formSetpoint,
      State.setLighting_heat, State.setAir_heat, State.setHeat_heat, State.setDoors_heat, State.setTraffic_heat]
    exact judgeCallsFrom_switched _ _ _ _ _ _ _
  refine hj.trans ?_
  simpa [publish, settleStages, settleChannels, settleFans, settleSetpoint, settleDoors, settleBay] using h0

end Sys2Proof.Machine
end

