-- ==== Sys2Proof/Laws/Demands.lean ====
section
/-! SUPPORT. The end of an event leaves every unit's demands as the unit's table gives them (R154). -/

namespace Sys2Proof.Machine

/-! ## What the demands read -/

/-- The parts of a state that the demands of all units but the heater stages are and depend on. Grants, outputs and
stages are left out. -/
structure DemandView where
  start : Start
  view : View
  page : Fin 4
  traffic : Traffic
  bay : BayState
  channels : List (Nat × Option Tier)
  docks : List Bool
  records : List (DoorState × Bool × Bool)
  boost : Bool
  setpoint : Int × SetpointSource × Int
  gas : GasClass
  fan1 : FanSource × AirDir × Nat × Option Tier
  fan2 : FanSource × AirDir × Nat × Option Tier
  balancing : Int
  available : Bool
  overrides : Overrides

/-- The view of a state. -/
def demandView (s : State) : DemandView where
  start := s.start
  view := s.view
  page := s.shift.page
  traffic := s.traffic
  bay := s.lighting.bay
  channels := s.lighting.channels.map fun c => (c.desired, c.tier)
  docks := s.lighting.docks.map DockLight.demanded
  records := s.doors.records.map fun d => (d.state, d.settling, d.curtainDemanded)
  boost := s.doors.boost
  setpoint := (s.heat.setpoint, s.heat.source, s.heat.effective)
  gas := s.air.gasClass
  fan1 := (s.air.fan1.source, s.air.fan1.requested, s.air.fan1.desired, s.air.fan1.tier)
  fan2 := (s.air.fan2.source, s.air.fan2.requested, s.air.fan2.desired, s.air.fan2.tier)
  balancing := s.air.balancing
  available := s.air.available
  overrides := s.overrides

/-- The demands of all units but the heater stages. -/
structure UnitsOk (s : State) : Prop where
  channels : ∀ (i : Nat) (c : ChannelConfig) (ch : Channel), s.cfg.lighting.channels[i]? = some c →
    s.lighting.channels[i]? = some ch →
    (ch.desired, ch.tier) = channelChoice c.mode (currentPage s) s.lighting.bay s.overrides.light i
  docks : ∀ (i : Nat) (d : Door) (k : DockLight), s.doors.records[i]? = some d → s.lighting.docks[i]? = some k →
    k.demanded = decide (d.state = .openSealed)
  curtains : ∀ d ∈ s.doors.records, d.curtainDemanded = (isUnsealedState d.state && !d.settling)
  setpoint : (s.heat.setpoint, s.heat.source) =
    baseSetpoint (currentPage s) s.lighting.bay (rulingEffect s.overrides.heat)
  effective : s.heat.effective = s.heat.setpoint + (if s.doors.boost then s.cfg.heat.boostDelta else 0)
    + ruleDelta (rulingEffect s.overrides.heat)
  fan1 : FanDemandOk (resolveFan1 s.air.gasClass s.cfg.air.actionSpeed (rulingEffect s.overrides.vent)
    (currentPage s).minVent (isWorking s || occupied s.traffic)) s.air.fan1
  fan2 : FanDemandOk (resolveFan2 s.air.gasClass (rulingEffect s.overrides.vent) (assistApplies s)
    s.cfg.air.assistSpeed s.cfg.air.fan2.flow s.air.balancing) s.air.fan2
  balancing : (s.view.link ≠ .joined ∨ takesFan2 s.air.fan2.source) → s.air.balancing = 0
  available : s.air.available = decide (s.air.fan2.source = .none ∨ s.air.fan2.source = .balancing)

theorem UnitsOk.of_view {s t : State} (h : UnitsOk s) (e : demandView t = demandView s) : UnitsOk t := by
  have e1 : t.start = s.start := congrArg DemandView.start e
  have e2 : t.view = s.view := congrArg DemandView.view e
  have e3 : t.shift.page = s.shift.page := congrArg DemandView.page e
  have e4 : t.traffic = s.traffic := congrArg DemandView.traffic e
  have e5 : t.lighting.bay = s.lighting.bay := congrArg DemandView.bay e
  have e6 : t.lighting.channels.map (fun c => (c.desired, c.tier)) = s.lighting.channels.map fun c => (c.desired, c.tier) :=
    congrArg DemandView.channels e
  have e7 : t.lighting.docks.map DockLight.demanded = s.lighting.docks.map DockLight.demanded :=
    congrArg DemandView.docks e
  have e8 : t.doors.records.map (fun d => (d.state, d.settling, d.curtainDemanded)) =
      s.doors.records.map fun d => (d.state, d.settling, d.curtainDemanded) := congrArg DemandView.records e
  have e9 : t.doors.boost = s.doors.boost := congrArg DemandView.boost e
  have e10 := congrArg DemandView.setpoint e
  have e11 : t.air.gasClass = s.air.gasClass := congrArg DemandView.gas e
  have e12 := congrArg DemandView.fan1 e
  have e13 := congrArg DemandView.fan2 e
  have e14 : t.air.balancing = s.air.balancing := congrArg DemandView.balancing e
  have e15 : t.air.available = s.air.available := congrArg DemandView.available e
  have e16 : t.overrides = s.overrides := congrArg DemandView.overrides e
  have ep : currentPage t = currentPage s := by simp only [currentPage, State.cfg, e1, e3]
  have ew : isWorking t = isWorking s := by simp only [isWorking, ep]
  have ea : assistApplies t = assistApplies s := by simp only [assistApplies, State.nCfg, State.own, e1, e2]
  simp only [demandView, Prod.mk.injEq] at e10 e12 e13
  obtain ⟨hs1, hs2, hs3⟩ := e10
  constructor
  · intro i c ch hc hch
    have hm := congrArg (fun l => l[i]?) e6
    simp only [List.getElem?_map, hch, Option.map_some] at hm
    obtain ⟨ch', hch', hE⟩ := Option.map_eq_some_iff.mp hm.symm
    rw [State.cfg, e1] at hc
    rw [← hE, ep, e5, e16]
    exact h.channels i c ch' hc hch'
  · intro i d k hd hk
    have hm := congrArg (fun l => l[i]?) e8
    simp only [List.getElem?_map, hd, Option.map_some] at hm
    obtain ⟨d', hd', hE⟩ := Option.map_eq_some_iff.mp hm.symm
    have hn := congrArg (fun l => l[i]?) e7
    simp only [List.getElem?_map, hk, Option.map_some] at hn
    obtain ⟨k', hk', hK⟩ := Option.map_eq_some_iff.mp hn.symm
    simp only [Prod.mk.injEq] at hE
    rw [← hK, ← hE.1]
    exact h.docks i d' k' hd' hk'
  · intro d hd
    obtain ⟨i, hi⟩ := List.getElem?_of_mem hd
    have hm := congrArg (fun l => l[i]?) e8
    simp only [List.getElem?_map, hi, Option.map_some] at hm
    obtain ⟨d', hd', hE⟩ := Option.map_eq_some_iff.mp hm.symm
    have h1 := h.curtains d' (List.mem_of_getElem? hd')
    simp only [Prod.mk.injEq] at hE
    rw [← hE.1, ← hE.2.1, ← hE.2.2]
    exact h1
  · rw [hs1, hs2, ep, e5, e16]; exact h.setpoint
  · rw [hs3, hs1, e9, State.cfg, e1, e16]; exact h.effective
  · have h1 := h.fan1
    simp only [FanDemandOk, State.cfg] at h1 ⊢
    rw [e11, e1, e16, ep, ew, e4, e12.1, e12.2.1, e12.2.2.1, e12.2.2.2]
    exact h1
  · have h1 := h.fan2
    simp only [FanDemandOk, State.cfg] at h1 ⊢
    rw [e11, e1, e16, ea, e14, e13.1, e13.2.1, e13.2.2.1, e13.2.2.2]
    exact h1
  · rw [e2, e13.1, e14]; exact h.balancing
  · rw [e15, e13.1]; exact h.available

/-! ## The units publish -/

theorem chooseChannels_getElem? (pg : Page) (bay : BayState) (stack : List OverrideEntry) (i0 i : Nat)
    (ks : List ChannelConfig) (cs : List Channel) (k : ChannelConfig) (hk : ks[i]? = some k) :
    (chooseChannels pg bay stack i0 ks cs)[i]? =
      cs[i]?.map (chooseChannel (channelChoice k.mode pg bay stack (i0 + i))) := by
  induction ks generalizing i0 i cs with
  | nil => simp at hk
  | cons k' ks ih =>
    cases cs with
    | nil => simp [chooseChannels]
    | cons c cs =>
      cases i with
      | zero =>
        simp only [List.getElem?_cons_zero, Option.some.injEq] at hk
        subst hk
        simp [chooseChannels]
      | succ n =>
        simp only [List.getElem?_cons_succ] at hk
        simp [chooseChannels, ih (i0 + 1) n cs hk, Nat.add_assoc, Nat.add_comm 1 n]

/-- A source that takes fan 2 does not depend on the balancing flow (Table 31). -/
theorem resolveFan2_takes (gas : GasClass) (vent : Option Effect) (assist : Bool) (speed flow : Nat) (b : Int)
    (h : takesFan2 (resolveFan2 gas vent assist speed flow b).source = true) :
    resolveFan2 gas vent assist speed flow 0 = resolveFan2 gas vent assist speed flow b := by
  unfold resolveFan2 at *
  by_cases hg : gas = .critical
  · simp [hg]
  · simp only [hg, if_false] at *
    cases hp : purgeOf vent with
    | some x => rfl
    | none =>
      simp only [hp] at *
      by_cases ha : assist = true
      · simp [ha]
      · simp only [ha] at *
        by_cases hv : vent.isSome = true
        · simp [hv]
        · simp only [hv] at *
          by_cases hb : 0 < balancingSpeed flow b
          · simp [hb, takesFan2] at h
          · simp [hb, FanDemand.idle, takesFan2] at h

theorem demandFan_ok (d : FanDemand) (f : Fan) : FanDemandOk d (demandFan d f) := by
  refine ⟨rfl, rfl, rfl, ?_⟩
  intro dir h
  simp [demandFan, h]

theorem settleDoors_curtains (s : State) : ∀ d ∈ (settleDoors s).doors.records,
    d.curtainDemanded = (isUnsealedState d.state && !d.settling) := by
  intro d hd
  have hd' : d ∈ (settleBoost s.clock s.cfg.doors.recovery s.doors).records.map demandCurtain := hd
  obtain ⟨x, -, rfl⟩ := List.mem_map.mp hd'
  rfl

theorem settleDoors_docks (s : State) (i : Nat) (d : Door) (k : DockLight) (hd : (settleDoors s).doors.records[i]? = some d)
    (hk : (settleDoors s).lighting.docks[i]? = some k) : k.demanded = decide (d.state = .openSealed) := by
  have hd' : ((settleBoost s.clock s.cfg.doors.recovery s.doors).records.map demandCurtain)[i]? = some d := hd
  have hk' : (alongside (fun (k : DockLight) (r : Door) => demandDock k (r.state = .openSealed)) s.lighting.docks
    ((settleBoost s.clock s.cfg.doors.recovery s.doors).records.map demandCurtain))[i]? = some k := hk
  rw [alongside_getElem?] at hk'
  obtain ⟨x, -, rfl⟩ := Option.map_eq_some_iff.mp hk'
  simp [hd', demandDock]

theorem settleFans_fan1 (u : State) : FanDemandOk
    (resolveFan1 u.air.gasClass u.cfg.air.actionSpeed (rulingEffect u.overrides.vent) (currentPage u).minVent
      (isWorking u || occupied u.traffic)) (settleFans u).air.fan1 := demandFan_ok _ _

theorem settleFans_fan2 (u : State) : FanDemandOk
    (resolveFan2 u.air.gasClass (rulingEffect u.overrides.vent) (assistApplies u) u.cfg.air.assistSpeed u.cfg.air.fan2.flow
      (settleFans u).air.balancing) (settleFans u).air.fan2 := by
  unfold settleFans
  dsimp only [State.setAir_air]
  generalize (if u.view.link = .joined then u.air.balancing else 0) = flow
  have h := demandFan_ok (resolveFan2 u.air.gasClass (rulingEffect u.overrides.vent) (assistApplies u)
    u.cfg.air.assistSpeed u.cfg.air.fan2.flow flow) u.air.fan2
  split
  · rename_i ht
    rw [resolveFan2_takes _ _ _ _ _ _ ht]
    exact h
  · exact h

theorem settleFans_balanced (u : State) :
    ((settleFans u).view.link ≠ .joined ∨ takesFan2 (settleFans u).air.fan2.source) → (settleFans u).air.balancing = 0 := by
  intro h
  have hb : (settleFans u).air.balancing = if takesFan2 (settleFans u).air.fan2.source then 0
      else if u.view.link = .joined then u.air.balancing else 0 := rfl
  rw [hb]
  split
  · rfl
  · rcases h with h | h
    · exact if_neg h
    · contradiction

theorem settleFans_available (u : State) : (settleFans u).air.available =
    decide ((settleFans u).air.fan2.source = .none ∨ (settleFans u).air.fan2.source = .balancing) :=
  (Bool.decide_or _ _).symm

/-- The units' publishing forms every demand but the stages' (R154). -/
theorem publish_units (before s : State) : UnitsOk (publish before s) := by
  obtain ⟨u, hu⟩ : ∃ u, u = settleSetpoint (settleDoors (settleBay before s)) := ⟨_, rfl⟩
  obtain ⟨air, he, hg⟩ : ∃ a, settleFans u = u.setAir a ∧ a.gasClass = u.air.gasClass := ⟨_, rfl, rfl⟩
  have hf : publish before s = settleStages (settleChannels (u.setAir air)) := by rw [← he, hu]; rfl
  constructor
  · intro i c ch hc hch
    have hc' : s.cfg.lighting.channels[i]? = some c := by
      simpa [publish, settleStages, settleChannels, settleFans, settleSetpoint, settleDoors, settleBay] using hc
    have h := chooseChannels_getElem? (currentPage s) (publish before s).lighting.bay s.overrides.light 0 i
      s.cfg.lighting.channels (settleDoors (settleBay before s)).lighting.channels c hc'
    have hch' : (chooseChannels (currentPage s) (publish before s).lighting.bay s.overrides.light 0
      s.cfg.lighting.channels (settleDoors (settleBay before s)).lighting.channels)[i]? = some ch := by
      simpa [publish, settleStages, settleChannels, settleFans, settleSetpoint, settleDoors, settleBay, currentPage] using hch
    rw [h] at hch'
    obtain ⟨x, -, rfl⟩ := Option.map_eq_some_iff.mp hch'
    have hp : currentPage (publish before s) = currentPage s := by
      simp [currentPage, publish, settleStages, settleChannels, settleFans, settleSetpoint, settleDoors, settleBay]
    have ho : (publish before s).overrides = s.overrides := by
      simp [publish, settleStages, settleChannels, settleFans, settleSetpoint, settleDoors, settleBay]
    rw [hp, ho, Nat.zero_add]
    rfl
  · intro i d k hd hk
    refine settleDoors_docks (settleBay before s) i d k ?_ ?_
    · simpa [publish, settleStages, settleChannels, settleFans, settleSetpoint] using hd
    · simpa [publish, settleStages, settleChannels, settleFans, settleSetpoint] using hk
  · intro d hd
    refine settleDoors_curtains (settleBay before s) d ?_
    simpa [publish, settleStages, settleChannels, settleFans, settleSetpoint] using hd
  · simp [publish, settleStages, settleChannels, settleFans, settleSetpoint, settleDoors, settleBay, currentPage, judgeCalls,
      formSetpoint]
  · simp [publish, settleStages, settleChannels, settleFans, settleSetpoint, settleDoors, settleBay, currentPage, judgeCalls,
      formSetpoint]
    split <;> simp [*]
  · rw [hf]
    have h := settleFans_fan1 u
    simpa [he, hg, settleStages, settleChannels, currentPage, isWorking] using h
  · rw [hf]
    have h := settleFans_fan2 u
    rw [he, ← hg] at h
    exact h
  · rw [hf]
    have h := settleFans_balanced u
    rw [he] at h
    exact h
  · rw [hf]
    have h := settleFans_available u
    rw [he] at h
    exact h

/-! ## Grants and outputs -/

theorem settleStages_view (s : State) : demandView (settleStages s) = demandView s := rfl

theorem driveFan_demand (now : Nat) (c : FanConfig) (f : Fan) :
    (driveFan now c f).source = f.source ∧ (driveFan now c f).requested = f.requested ∧
      (driveFan now c f).desired = f.desired ∧ (driveFan now c f).tier = f.tier := by
  unfold driveFan startFan beginRise coastFan
  dsimp only
  (repeat' split) <;> exact ⟨rfl, rfl, rfl, rfl⟩

theorem driveOwners_view (s : State) : demandView (driveOwners s) = demandView s := by
  have hch : (s.lighting.channels.map (trackChannel s.clock)).map (fun c => (c.desired, c.tier)) =
      s.lighting.channels.map fun c => (c.desired, c.tier) := by
    rw [List.map_map]
    congr 1
    funext c
    simp only [Function.comp, trackChannel]
    split <;> rfl
  obtain ⟨a1, a2, a3, a4⟩ := driveFan_demand s.clock s.cfg.air.fan1 s.air.fan1
  obtain ⟨b1, b2, b3, b4⟩ := driveFan_demand s.clock s.cfg.air.fan2 s.air.fan2
  have hd : (s.doors.records.map driveCurtain).map (fun d => (d.state, d.settling, d.curtainDemanded)) =
      s.doors.records.map fun d => (d.state, d.settling, d.curtainDemanded) := by
    rw [List.map_map]
    rfl
  have hk : (s.lighting.docks.map driveDock).map DockLight.demanded = s.lighting.docks.map DockLight.demanded := by
    rw [List.map_map]
    rfl
  unfold demandView driveOwners settleStages driveStages driveFans driveCurtains driveLights
  simp only [State.setHeat_start, State.setAir_start, State.setDoors_start, State.setLighting_start, State.setHeat_view,
    State.setAir_view, State.setDoors_view, State.setLighting_view, State.setHeat_shift, State.setAir_shift,
    State.setDoors_shift, State.setLighting_shift, State.setHeat_traffic, State.setAir_traffic, State.setDoors_traffic,
    State.setLighting_traffic, State.setHeat_lighting, State.setAir_lighting, State.setDoors_lighting,
    State.setLighting_lighting, State.setHeat_doors, State.setAir_doors, State.setDoors_doors, State.setLighting_doors,
    State.setHeat_heat, State.setAir_heat, State.setDoors_heat, State.setLighting_heat, State.setHeat_air, State.setAir_air,
    State.setDoors_air, State.setLighting_air, State.setHeat_overrides, State.setAir_overrides, State.setDoors_overrides,
    State.setLighting_overrides, State.setAir_clock, State.setDoors_clock, State.setLighting_clock, State.cfg, hch, hd, hk,
    a1, a2, a3, a4, b1, b2, b3, b4]

theorem recompute_view (s : State) : demandView (recompute s) = demandView s := by
  by_cases h : s.view.link = .joined <;> simp [recompute, demandView, h]

theorem realise_view (s : State) : demandView (realise s) = demandView s := by
  unfold realise
  generalize grantedSettings s = g
  have hch := alongside_map (fun c : Channel => (c.desired, c.tier)) (fun (c : Channel) x => { c with granted := x })
    (fun _ _ => rfl) s.lighting.channels g
  have hk := fun h => alongside_map DockLight.demanded (fun (d : DockLight) x => { d with granted := decide (x ≠ 0) })
    (fun _ _ => rfl) s.lighting.docks h
  have hd := fun h => alongside_map (fun d : Door => (d.state, d.settling, d.curtainDemanded))
    (fun (d : Door) x => { d with curtainGranted := decide (x ≠ 0) }) (fun _ _ => rfl) s.doors.records h
  unfold demandView returnGrants
  simp only [State.setHeat_start, State.setAir_start, State.setDoors_start, State.setLighting_start, State.setHeat_view,
    State.setAir_view, State.setDoors_view, State.setLighting_view, State.setHeat_shift, State.setAir_shift,
    State.setDoors_shift, State.setLighting_shift, State.setHeat_traffic, State.setAir_traffic, State.setDoors_traffic,
    State.setLighting_traffic, State.setHeat_lighting, State.setAir_lighting, State.setDoors_lighting,
    State.setLighting_lighting, State.setHeat_doors, State.setAir_doors, State.setDoors_doors, State.setLighting_doors,
    State.setHeat_heat, State.setAir_heat, State.setDoors_heat, State.setLighting_heat, State.setHeat_air, State.setAir_air,
    State.setDoors_air, State.setLighting_air, State.setHeat_overrides, State.setAir_overrides, State.setDoors_overrides,
    State.setLighting_overrides, hch, hk, hd]

theorem allocate_view (work : Work) (s : State) : demandView (allocate work s) = demandView s := by
  cases work with
  | none => rfl
  | realise => exact realise_view s
  | recompute => exact (realise_view _).trans (recompute_view s)

theorem settleLoads_view (rounds : Nat) (work : Work) (s : State) : demandView (settleLoads rounds work s) = demandView s := by
  induction rounds generalizing work s with
  | zero => rfl
  | succ n ih =>
    have h := (driveOwners_view (allocate work s)).trans (allocate_view work s)
    unfold settleLoads
    dsimp only
    split
    · exact h
    · exact (ih _ _).trans h

theorem measure_view (s : State) : demandView (measure s) = demandView s := by simp [measure, demandView]

theorem reportAlarms_view (s : State) : demandView (reportAlarms s) = demandView s := rfl

theorem offerSummaries_view (before s : State) : demandView (offerSummaries before s) = demandView s := by
  unfold offerSummaries offer
  (repeat' split) <;> rfl

/-! ## The stages' demands -/

/-- Every stage's demand is the one its row gives. -/
def StageDemandsOk (s : State) : Prop :=
  ∀ (k : Nat) (c : StageConfig) (st : Stage), s.cfg.heat.stages[k]? = some c → s.heat.stages[k]? = some st →
    StageDemandOk (stageCall (isWorking s) (holdRules (rulingEffect s.overrides.heat)) s.heat k st.call) st

theorem formStage_ok (now : Nat) (c : StageConfig) (row : StageCall) (st : Stage) :
    StageDemandOk row (formStage now c row st) := by
  unfold formStage StageDemandOk
  cases row with
  | called t => exact ⟨rfl, rfl⟩
  | released i =>
    dsimp only
    split
    · simp [noDemand, *]
    · split
      · simp [noDemand]
      · rename_i h1 h2
        simp only [Bool.or_eq_true, not_or, Bool.not_eq_true] at h2
        simp [h1, h2.1]

theorem settleStages_demands (s : State) : StageDemandsOk (settleStages s) := by
  intro k c st hc hst
  have hst' : (formStages s.clock (isWorking s) (holdRules (rulingEffect s.overrides.heat)) s.heat 0
    s.cfg.heat.stages s.heat.stages)[k]? = some st := hst
  have hc' : s.cfg.heat.stages[k]? = some c := hc
  rw [formStages_getElem? _ _ _ _ 0 k _ _ c hc', Nat.zero_add] at hst'
  obtain ⟨x, -, rfl⟩ := Option.map_eq_some_iff.mp hst'
  rw [formStage_call]
  exact formStage_ok _ _ _ _

theorem settleLoads_demands (rounds : Nat) (work : Work) (s : State) (hr : 0 < rounds) :
    StageDemandsOk (settleLoads rounds work s) := by
  induction rounds generalizing work s with
  | zero => omega
  | succ n ih =>
    have hd : StageDemandsOk (driveOwners (allocate work s)) := settleStages_demands _
    unfold settleLoads
    dsimp only
    split
    · exact hd
    · cases n with
      | zero => exact hd
      | succ m => exact ih _ _ (by omega)

theorem measured_demands (s : State) (h : StageDemandsOk s) : StageDemandsOk (reportAlarms (measure s)) := by
  intro k c st hc hst
  have hh : (reportAlarms (measure s)).heat = s.heat := by simp [reportAlarms, measure]
  have hs : (reportAlarms (measure s)).start = s.start := by simp [reportAlarms, measure]
  have ho : (reportAlarms (measure s)).overrides = s.overrides := by simp [reportAlarms, measure]
  have hw : isWorking (reportAlarms (measure s)) = isWorking s := by
    simp [isWorking, currentPage, reportAlarms, measure]
  rw [State.cfg, hs] at hc
  rw [hh] at hst
  rw [hh, ho, hw]
  exact h k c st hc hst

theorem offered_demands (before s : State) (h : StageDemandsOk s) : StageDemandsOk (offerSummaries before s) := by
  unfold offerSummaries offer
  (repeat' split) <;> exact h

/-! ## The end of an event -/

/-- The end of an event leaves every unit's demands as the unit's table gives them. -/
theorem finish_demands (before : State) (work : Work) (s : State) : DemandsOk (finish before work s) := by
  have hu : UnitsOk (finish before work s) :=
    (publish_units before s).of_view ((offerSummaries_view _ _).trans ((reportAlarms_view _).trans
      ((measure_view _).trans (settleLoads_view _ _ _))))
  have hs : StageDemandsOk (finish before work s) :=
    offered_demands _ _ (measured_demands _ (settleLoads_demands _ _ _ (by omega)))
  exact { hu with stages := hs }

end Sys2Proof.Machine
end

