-- ==== Sys2Proof/Laws/Outputs.lean ====
section
/-! SUPPORT. What the end of an event does to the lights, the fans and the switched outputs: each is left following its
target, and moves only as its rules let it within one event (R84 to R86, R89, R100, R127, R128, R130). -/

namespace Sys2Proof.Machine

/-! ## One channel, one fan -/

theorem trackChannel_settled (now : Nat) (c : Channel) : ChannelSettled (trackChannel now c) := by
  unfold trackChannel
  dsimp only
  split
  · exact ⟨rfl, Nat.le_refl _, by simp⟩
  · exact ⟨rfl, by dsimp only; omega, by simp; omega⟩

theorem trackChannel_moved (now : Nat) (c : Channel) : ChannelMoved now c (trackChannel now c) := by
  unfold trackChannel
  dsimp only
  split
  · exact ⟨by assumption, .inr (.inl rfl)⟩
  · refine ⟨Nat.le_refl _, ?_⟩
    cases h : c.rise with
    | none => exact .inr (.inr rfl)
    | some r => exact .inl ⟨rfl, rfl⟩

theorem ChannelMoved.of_same {now : Nat} {c c' : Channel} (h1 : c'.present = c.present) (h2 : c'.rise = c.rise) :
    ChannelMoved now c c' := ⟨Nat.le_of_eq h1, .inl ⟨h2, h1⟩⟩

theorem ChannelMoved.trans {now : Nat} {a b c : Channel} (h : ChannelMoved now a b) (k : ChannelMoved now b c) :
    ChannelMoved now a c := by
  refine ⟨k.1.trans h.1, ?_⟩
  rcases k.2 with ⟨k1, k2⟩ | k1 | k1
  · rcases h.2 with ⟨h1, h2⟩ | h1 | h1
    · exact .inl ⟨k1.trans h1, k2.trans h2⟩
    · exact .inr (.inl (k1.trans h1))
    · exact .inr (.inr (by rw [k1, h1, k2]))
  · exact .inr (.inl k1)
  · exact .inr (.inr k1)

theorem beginRise_settled (now : Nat) (c : FanConfig) (f : Fan) (h1 : f.target = min f.desired f.granted)
    (h2 : f.state = .running) (h3 : 0 < f.target) (h4 : f.direction = some f.requested) : FanSettled (beginRise now c f) := by
  unfold FanSettled beginRise
  simp only [h2]
  refine ⟨h1, h3, h4, Nat.min_le_left _ _, ?_⟩
  split <;> simp_all

theorem driveFan_settled (now : Nat) (c : FanConfig) (f : Fan) : FanSettled (driveFan now c f) := by
  rcases f with ⟨st, dir, coast, src, req, des, tier, gr, tgt, pres, ramp⟩
  unfold driveFan
  dsimp only
  cases st <;> dsimp only <;> (repeat' split) <;>
    first
    | exact beginRise_settled _ _ _ rfl rfl (by assumption) rfl
    | exact beginRise_settled _ _ _ rfl rfl (And.left (by assumption)) rfl
    | exact beginRise_settled _ _ _ rfl rfl (by simp_all; omega) (by simp_all)
    | (simp [FanSettled, coastFan]; grind)

theorem driveFan_moved (now : Nat) (c : FanConfig) (f : Fan) : FanMoved now c f (driveFan now c f) := by
  rcases f with ⟨st, dir, coast, src, req, des, tier, gr, tgt, pres, ramp⟩
  unfold driveFan
  dsimp only
  generalize min des gr = t
  cases st <;> dsimp only <;> (repeat' split) <;>
    simp [FanMoved, startFan, coastFan, beginRise] <;> grind

theorem FanMoved.of_same {now : Nat} {c : FanConfig} {f f' : Fan} (h1 : f'.state = f.state) (h2 : f'.present = f.present)
    (h3 : f'.direction = f.direction) (h4 : f'.coastDue = f.coastDue) (h5 : f'.rampDue = f.rampDue) : FanMoved now c f f' := by
  unfold FanMoved
  cases h : f'.state <;> simp_all

theorem FanMoved.trans {now : Nat} {c : FanConfig} {f g h : Fan} (a : FanMoved now c f g) (b : FanMoved now c g h) :
    FanMoved now c f h := by
  unfold FanMoved at *
  cases hh : h.state <;> cases hg : g.state <;> simp only [hh, hg] at a b ⊢ <;> simp_all
  all_goals grind

/-! ## All outputs -/

/-- Every output follows its target. -/
structure OutputsSettled (s : State) : Prop where
  lights : ∀ c ∈ s.lighting.channels, ChannelSettled c
  fan1 : FanSettled s.air.fan1
  fan2 : FanSettled s.air.fan2
  docks : ∀ d ∈ s.lighting.docks, d.output = (d.demanded && d.granted)
  curtains : ∀ d ∈ s.doors.records, d.curtainOn = (d.curtainDemanded && d.curtainGranted)

/-- From `s` to `t` the lights and fans move as one event lets them. -/
structure OutputsMoved (s t : State) : Prop where
  clock : t.clock = s.clock
  start : t.start = s.start
  lights : List.Forall₂ (ChannelMoved s.clock) s.lighting.channels t.lighting.channels
  fan1 : FanMoved s.clock s.cfg.air.fan1 s.air.fan1 t.air.fan1
  fan2 : FanMoved s.clock s.cfg.air.fan2 s.air.fan2 t.air.fan2

theorem channelsMoved_refl (now : Nat) (l : List Channel) : List.Forall₂ (ChannelMoved now) l l :=
  List.forall₂_same.mpr fun _ _ => .of_same rfl rfl

theorem OutputsMoved.trans {a b c : State} (h : OutputsMoved a b) (k : OutputsMoved b c) : OutputsMoved a c where
  clock := k.clock.trans h.clock
  start := k.start.trans h.start
  lights := by
    have hk := k.lights
    rw [h.clock] at hk
    revert hk
    generalize c.lighting.channels = z
    have hl := h.lights
    revert hl
    generalize a.lighting.channels = x
    generalize b.lighting.channels = y
    intro hl
    induction hl generalizing z with
    | nil => intro hk; cases hk; exact .nil
    | cons h1 _ ih =>
      intro hk
      cases hk with
      | cons k1 ks => exact .cons (h1.trans k1) (ih _ ks)
  fan1 := h.fan1.trans (by have := k.fan1; rwa [h.clock, State.cfg, h.start] at this)
  fan2 := h.fan2.trans (by have := k.fan2; rwa [h.clock, State.cfg, h.start] at this)

/-- An update that leaves the lights and fans standing. -/
theorem OutputsMoved.of_same {s t : State} (h1 : t.clock = s.clock) (h2 : t.start = s.start)
    (h3 : t.lighting.channels = s.lighting.channels) (h4 : t.air.fan1 = s.air.fan1) (h5 : t.air.fan2 = s.air.fan2) :
    OutputsMoved s t :=
  ⟨h1, h2, h3 ▸ channelsMoved_refl _ _, h4 ▸ .of_same rfl rfl rfl rfl rfl, h5 ▸ .of_same rfl rfl rfl rfl rfl⟩

theorem chooseChannels_moved (now : Nat) (pg : Page) (bay : BayState) (stack : List OverrideEntry) (i : Nat)
    (ks : List ChannelConfig) (cs : List Channel) :
    List.Forall₂ (ChannelMoved now) cs (chooseChannels pg bay stack i ks cs) := by
  induction ks generalizing i cs with
  | nil => cases cs <;> exact channelsMoved_refl _ _
  | cons k ks ih =>
    cases cs with
    | nil => exact .nil
    | cons c cs => exact .cons (.of_same rfl rfl) (ih _ _)

theorem grantChannels_moved (now : Nat) (cs : List Channel) (g : List Nat) :
    List.Forall₂ (ChannelMoved now) cs (alongside (fun (c : Channel) x => { c with granted := x }) cs g) := by
  induction cs generalizing g with
  | nil => cases g <;> exact .nil
  | cons c cs ih =>
    cases g with
    | nil => exact channelsMoved_refl _ _
    | cons x xs => exact .cons (.of_same rfl rfl) (ih xs)

/-- The units' publishing moves no output (R154). -/
theorem publish_outputs (before s : State) : OutputsMoved s (publish before s) := by
  have hc : (settleBay before s).lighting.channels = s.lighting.channels := by
    simp only [settleBay, State.setLighting_lighting, followOccupied]
    (repeat' split) <;> rfl
  have h1 : OutputsMoved s (settleSetpoint (settleDoors (settleBay before s))) :=
    .of_same rfl rfl hc rfl rfl
  refine h1.trans (.trans (b := settleFans (settleSetpoint (settleDoors (settleBay before s)))) ?_ (.trans (b :=
    settleChannels (settleFans (settleSetpoint (settleDoors (settleBay before s))))) ?_ (.of_same rfl rfl rfl rfl rfl)))
  · exact ⟨rfl, rfl, channelsMoved_refl _ _, .of_same rfl rfl rfl rfl rfl, .of_same rfl rfl rfl rfl rfl⟩
  · exact ⟨rfl, rfl, chooseChannels_moved _ _ _ _ _ _ _, .of_same rfl rfl rfl rfl rfl, .of_same rfl rfl rfl rfl rfl⟩

theorem realise_outputs (s : State) : OutputsMoved s (realise s) := by
  unfold realise
  generalize grantedSettings s = g
  exact ⟨rfl, rfl, grantChannels_moved _ _ _, .of_same rfl rfl rfl rfl rfl, .of_same rfl rfl rfl rfl rfl⟩

theorem allocate_outputs (work : Work) (s : State) : OutputsMoved s (allocate work s) := by
  have hr : OutputsMoved s (recompute s) := by
    unfold recompute
    exact .of_same rfl rfl rfl rfl rfl
  cases work with
  | none => exact .of_same rfl rfl rfl rfl rfl
  | realise => exact realise_outputs s
  | recompute => exact hr.trans (realise_outputs _)

theorem driveOwners_outputs (s : State) : OutputsSettled (driveOwners s) ∧ OutputsMoved s (driveOwners s) := by
  refine ⟨⟨?_, driveFan_settled _ _ _, driveFan_settled _ _ _, ?_, ?_⟩, rfl, rfl, ?_, driveFan_moved _ _ _,
    driveFan_moved _ _ _⟩
  · intro c hc
    obtain ⟨x, -, rfl⟩ := List.mem_map.mp (show c ∈ s.lighting.channels.map (trackChannel s.clock) from hc)
    exact trackChannel_settled _ _
  · intro d hd
    obtain ⟨x, -, rfl⟩ := List.mem_map.mp (show d ∈ s.lighting.docks.map driveDock from hd)
    rfl
  · intro d hd
    obtain ⟨x, -, rfl⟩ := List.mem_map.mp (show d ∈ s.doors.records.map driveCurtain from hd)
    rfl
  · show List.Forall₂ _ _ (s.lighting.channels.map (trackChannel s.clock))
    induction s.lighting.channels with
    | nil => exact .nil
    | cons c cs ih => exact .cons (trackChannel_moved _ _) ih

/-- The allocator's rounds leave every output following its target (R84 to R86, R89, R100, R128). -/
theorem settleLoads_outputs (rounds : Nat) (work : Work) (s : State) (hr : 0 < rounds) :
    OutputsSettled (settleLoads rounds work s) ∧ OutputsMoved s (settleLoads rounds work s) := by
  induction rounds generalizing work s with
  | zero => omega
  | succ n ih =>
    obtain ⟨h1, h2⟩ := driveOwners_outputs (allocate work s)
    have h3 := (allocate_outputs work s).trans h2
    unfold settleLoads
    dsimp only
    generalize driveOwners (allocate work s) = d at h1 h3 ⊢
    split
    · exact ⟨h1, h3⟩
    · cases n with
      | zero => exact ⟨h1, h3⟩
      | succ m =>
        obtain ⟨h4, h5⟩ := ih .recompute d (by omega)
        exact ⟨h4, h3.trans h5⟩

end Sys2Proof.Machine
end

