-- ==== Sys2Proof/Laws/Settle.lean ====
section
/-! SUPPORT. What the end of an event can do, operation by operation: each lemma says what its operation leaves as it
was, so that no later proof unfolds `finish`. -/

namespace Sys2Proof.Machine

/-! ## Grants and outputs -/

/-- `t` follows `s` by grants and outputs alone: the allocator and the owners' records of granted and present settings
may differ, and the demands of heater stages that are released. -/
structure LoadsFrame (s t : State) : Prop where
  pending : t.pending = s.pending
  clock : t.clock = s.clock
  start : t.start = s.start
  line : t.line = s.line
  view : t.view = s.view
  shift : t.shift = s.shift
  traffic : t.traffic = s.traffic
  bay : t.lighting.bay = s.lighting.bay
  leadIn : t.lighting.leadInDue = s.lighting.leadInDue
  vacating : t.lighting.vacatingDue = s.lighting.vacatingDue
  manual : t.lighting.manual = s.lighting.manual
  channels : t.lighting.channels.length = s.lighting.channels.length
  docks : t.lighting.docks.length = s.lighting.docks.length
  doors : t.doors.records.map Door.bare = s.doors.records.map Door.bare
  openUnsealed : t.doors.openUnsealed = s.doors.openUnsealed
  boost : t.doors.boost = s.doors.boost
  recovery : t.doors.recoveryDue = s.doors.recoveryDue
  heat : t.heat = { s.heat with stages := t.heat.stages }
  stages : t.heat.stages.length = s.heat.stages.length
  calls : t.heat.stages.map Stage.call = s.heat.stages.map Stage.call
  co : t.air.co = s.air.co
  no2 : t.air.no2 = s.air.no2
  gasClass : t.air.gasClass = s.air.gasClass
  balancing : t.air.balancing = s.air.balancing
  available : t.air.available = s.air.available
  netFlow : t.air.netFlow = s.air.netFlow
  overrides : t.overrides = s.overrides
  alarms : t.alarms = s.alarms
  meter : t.alloc.meter = s.alloc.meter
  energised : t.alloc.energised = s.alloc.energised
  reported : t.alloc.reported = s.alloc.reported

theorem LoadsFrame.refl (s : State) : LoadsFrame s s := by constructor <;> rfl

theorem LoadsFrame.trans {a b c : State} (h : LoadsFrame a b) (k : LoadsFrame b c) : LoadsFrame a c where
  pending := k.pending.trans h.pending
  clock := k.clock.trans h.clock
  start := k.start.trans h.start
  line := k.line.trans h.line
  view := k.view.trans h.view
  shift := k.shift.trans h.shift
  traffic := k.traffic.trans h.traffic
  bay := k.bay.trans h.bay
  leadIn := k.leadIn.trans h.leadIn
  vacating := k.vacating.trans h.vacating
  manual := k.manual.trans h.manual
  channels := k.channels.trans h.channels
  docks := k.docks.trans h.docks
  doors := k.doors.trans h.doors
  openUnsealed := k.openUnsealed.trans h.openUnsealed
  boost := k.boost.trans h.boost
  recovery := k.recovery.trans h.recovery
  heat := by rw [k.heat, h.heat]
  stages := k.stages.trans h.stages
  calls := k.calls.trans h.calls
  co := k.co.trans h.co
  no2 := k.no2.trans h.no2
  gasClass := k.gasClass.trans h.gasClass
  balancing := k.balancing.trans h.balancing
  available := k.available.trans h.available
  netFlow := k.netFlow.trans h.netFlow
  overrides := k.overrides.trans h.overrides
  alarms := k.alarms.trans h.alarms
  meter := k.meter.trans h.meter
  energised := k.energised.trans h.energised
  reported := k.reported.trans h.reported

@[simp] theorem judgeCallsFrom_length (c : HeatConfig) (f : Bool) (l : Option Int) (e : Int) (k : Nat) (sts : List Stage) :
    (judgeCallsFrom c f l e k sts).length = sts.length := by
  induction sts generalizing k with
  | nil => rfl
  | cons st sts ih => simp [judgeCallsFrom, ih]

@[simp] theorem formStages_length (now : Nat) (w hold : Bool) (h : Heat) (k : Nat) (cs : List StageConfig) (sts : List Stage) :
    (formStages now w hold h k cs sts).length = sts.length := by
  induction cs generalizing k sts with
  | nil => cases sts <;> rfl
  | cons c cs ih => cases sts <;> simp [formStages, ih]

@[simp] theorem switchStages_length (now : Nat) (cs : List StageConfig) (sts : List Stage) :
    (switchStages now cs sts).length = sts.length := by
  induction cs generalizing sts with
  | nil => cases sts <;> rfl
  | cons c cs ih => cases sts <;> simp [switchStages, ih]

theorem switchStage_call (now : Nat) (c : StageConfig) (st : Stage) : (switchStage now c st).call = st.call := by
  unfold switchStage
  (repeat' split) <;> rfl

theorem formStages_calls (now : Nat) (w hold : Bool) (h : Heat) (k : Nat) (cs : List StageConfig) (sts : List Stage) :
    (formStages now w hold h k cs sts).map Stage.call = sts.map Stage.call := by
  induction cs generalizing k sts with
  | nil => cases sts <;> rfl
  | cons c cs ih => cases sts <;> simp [formStages, formStage_call, ih]

theorem switchStages_calls (now : Nat) (cs : List StageConfig) (sts : List Stage) :
    (switchStages now cs sts).map Stage.call = sts.map Stage.call := by
  induction cs generalizing sts with
  | nil => cases sts <;> rfl
  | cons c cs ih => cases sts <;> simp [switchStages, switchStage_call, ih]

@[simp] theorem chooseChannels_length (pg : Page) (bay : BayState) (stack : List OverrideEntry) (i : Nat)
    (ks : List ChannelConfig) (cs : List Channel) : (chooseChannels pg bay stack i ks cs).length = cs.length := by
  induction ks generalizing i cs with
  | nil => cases cs <;> rfl
  | cons k ks ih => cases cs <;> simp [chooseChannels, ih]

theorem moveApplied_meter (now interval : Nat) (g : Grants) (a : Alloc) :
    (moveApplied now interval g a).meter = a.meter := rfl

/-- A recomputation writes the requests, the grants and CAP_EXCEEDED, and nothing else. -/
theorem recompute_frame (s : State) : LoadsFrame s (recompute s) := by
  by_cases h : s.view.link = .joined <;>
    simp only [recompute, State.setAlloc_view, h, if_true, if_false] <;>
    constructor <;> rfl

theorem bare_grant (d : Door) (b : Bool) : Door.bare { d with curtainGranted := b } = Door.bare d := rfl

/-- A realisation writes the granted settings, and nothing else. -/
theorem realise_frame (s : State) : LoadsFrame s (realise s) := by
  unfold realise
  generalize grantedSettings s = g
  unfold returnGrants
  constructor <;>
    first
    | rfl
    | exact alongside_length _ _ _
    | (simp only [State.setHeat_doors, State.setDoors_doors, State.setAir_doors, State.setLighting_doors,
         State.setHeat_heat, State.setDoors_heat, State.setAir_heat, State.setLighting_heat]
       apply alongside_map
       intro _ _
       rfl)

theorem allocate_frame (work : Work) (s : State) : LoadsFrame s (allocate work s) := by
  cases work with
  | none => exact .refl s
  | realise => exact realise_frame s
  | recompute => exact (recompute_frame s).trans (realise_frame _)

theorem driveLights_frame (s : State) : LoadsFrame s (driveLights s) := by
  constructor <;> first | rfl | exact List.length_map _

theorem driveCurtains_frame (s : State) : LoadsFrame s (driveCurtains s) := by
  constructor <;> first | rfl | exact (List.map_map).trans rfl

theorem driveFans_frame (s : State) : LoadsFrame s (driveFans s) := by
  unfold driveFans
  generalize driveFan _ _ _ = f1
  generalize driveFan _ _ _ = f2
  constructor <;> rfl

theorem driveStages_frame (s : State) : LoadsFrame s (driveStages s) := by
  constructor <;> first | rfl | exact switchStages_length _ _ _ | exact switchStages_calls _ _ _

theorem formStages_frame (s : State) : LoadsFrame s (settleStages s) := by
  constructor <;> first | rfl | exact formStages_length _ _ _ _ _ _ _ | exact formStages_calls _ _ _ _ _ _ _

/-- The owners write their outputs and the demands of stages that are switched off, and nothing else. -/
theorem driveOwners_frame (s : State) : LoadsFrame s (driveOwners s) :=
  (driveLights_frame s).trans ((driveCurtains_frame _).trans ((driveFans_frame _).trans
    ((driveStages_frame _).trans (formStages_frame _))))

/-- The allocator's work and what the owners do with it leave everything but grants and outputs. -/
theorem settleLoads_frame (rounds : Nat) (work : Work) (s : State) : LoadsFrame s (settleLoads rounds work s) := by
  induction rounds generalizing work s with
  | zero => exact .refl s
  | succ n ih =>
    have h := (allocate_frame work s).trans (driveOwners_frame _)
    unfold settleLoads
    dsimp only
    split
    · exact h
    · exact h.trans (ih _ _)

/-! ## What the units publish -/

theorem settleTraffic_kept (vacancy now : Nat) (was : Bool) (t : Traffic) :
    settleTraffic vacancy now was t = { t with
      count := (settleTraffic vacancy now was t).count, uncertain := (settleTraffic vacancy now was t).uncertain,
      vacancySince := (settleTraffic vacancy now was t).vacancySince } := by
  unfold settleTraffic
  dsimp only
  split <;> rfl

/-- The count, UNCERTAIN and the vacancy timer after the end of an event (R70, R71). -/
theorem settleTraffic_judged (vacancy now : Nat) (was : Bool) (t : Traffic) :
    ((settleTraffic vacancy now was t).count = if present t = false ∧ (t.gate = .fault ∨ t.uncertain = true) ∧
        was = false ∧ t.vacancySince.getD now + vacancy * 250 ≤ now then 0 else t.count) ∧
    (settleTraffic vacancy now was t).uncertain = (if t.gate = .fault then true
      else if (settleTraffic vacancy now was t).count = 0 ∧ present t = false then false else t.uncertain) ∧
    (settleTraffic vacancy now was t).vacancySince =
      (if 0 < (settleTraffic vacancy now was t).count ∧ present t = false then some (t.vacancySince.getD now) else none) := by
  by_cases hu : (judgeVacancy now (judgeUncertain t)).uncertain = true ∧ was = false ∧
      vacancyReached vacancy now (judgeVacancy now (judgeUncertain t)) = true
  · have hs : settleTraffic vacancy now was t = judgeUncertain (correctVacancy (judgeVacancy now (judgeUncertain t))) := by
      simp [settleTraffic, hu]
    obtain ⟨h1, h2, h3⟩ := hu
    rw [hs]
    have hun : t.gate = .fault ∨ t.uncertain = true := by
      simp only [judgeVacancy, judgeUncertain] at h1
      (repeat' split at h1) <;> simp_all
    have hv : 0 < t.count ∧ present t = false ∧ t.vacancySince.getD now + vacancy * 250 ≤ now := by
      have key : (judgeVacancy now (judgeUncertain t)).vacancySince =
          if 0 < t.count ∧ present t = false then some (t.vacancySince.getD now) else none := rfl
      unfold vacancyReached at h3
      rw [key, h1] at h3
      by_cases hc : 0 < t.count ∧ present t = false
      · rw [if_pos hc] at h3
        exact ⟨hc.1, hc.2, by simpa [reached, vacancyLimit] using h3⟩
      · rw [if_neg hc] at h3
        simp [reached] at h3
    have hpr : present (correctVacancy (judgeVacancy now (judgeUncertain t))) = false := hv.2.1
    have hg : (correctVacancy (judgeVacancy now (judgeUncertain t))).gate = t.gate := rfl
    refine ⟨?_, ?_, ?_⟩
    · rw [if_pos ⟨hv.2.1, hun, h2, hv.2.2⟩]
      rfl
    · change (if (correctVacancy (judgeVacancy now (judgeUncertain t))).gate = .fault then true
        else if (correctVacancy (judgeVacancy now (judgeUncertain t))).count = 0 ∧
          present (correctVacancy (judgeVacancy now (judgeUncertain t))) = false then false
        else (correctVacancy (judgeVacancy now (judgeUncertain t))).uncertain) = _
      rw [hpr, hg, hv.2.1]
      simp [correctVacancy, judgeUncertain]
    · simp [judgeUncertain, correctVacancy, judgeVacancy]
  · have hs : settleTraffic vacancy now was t = judgeVacancy now (judgeUncertain t) := by
      unfold settleTraffic
      rw [if_neg]
      simpa using hu
    rw [hs]
    refine ⟨?_, rfl, rfl⟩
    change t.count = _
    split
    · rename_i h
      obtain ⟨h1, h2, h3, h4⟩ := h
      by_contra hc
      have hpos : 0 < t.count := by omega
      refine hu ⟨?_, h3, ?_⟩
      · simp only [judgeVacancy, judgeUncertain]
        rcases h2 with h2 | h2
        · simp [h2]
        · rw [if_neg (by omega : ¬(t.count = 0 ∧ present t = false)), h2, ite_self]
      · have hun : (judgeVacancy now (judgeUncertain t)).uncertain = true := by
          simp only [judgeVacancy, judgeUncertain]
          rcases h2 with h2 | h2
          · simp [h2]
          · rw [if_neg (by omega : ¬(t.count = 0 ∧ present t = false)), h2, ite_self]
        have hvs : (judgeVacancy now (judgeUncertain t)).vacancySince = some (t.vacancySince.getD now) :=
          if_pos ⟨hpos, h1⟩
        unfold vacancyReached
        rw [hun, hvs]
        simpa [reached, vacancyLimit] using h4
    · rfl

theorem followOccupied_kept (now hold : Nat) (occ : Bool) (l : Lighting) :
    (followOccupied now hold occ l).channels = l.channels ∧ (followOccupied now hold occ l).docks = l.docks ∧
      (followOccupied now hold occ l).manual = l.manual := by
  unfold followOccupied
  (repeat' split) <;> exact ⟨rfl, rfl, rfl⟩

/-- `t` follows `s` by the units' publishing alone: `PublishFrame` is what an event's end leaves before the allocator
works. -/
structure PublishFrame (s t : State) : Prop where
  pending : t.pending = s.pending
  clock : t.clock = s.clock
  start : t.start = s.start
  line : t.line = s.line
  view : t.view = s.view
  shift : t.shift = s.shift
  traffic : t.traffic = { s.traffic with
    count := t.traffic.count, uncertain := t.traffic.uncertain, vacancySince := t.traffic.vacancySince }
  manual : t.lighting.manual = s.lighting.manual
  channels : t.lighting.channels.length = s.lighting.channels.length
  docks : t.lighting.docks.length = s.lighting.docks.length
  doors : t.doors.records.map Door.bare = s.doors.records.map Door.bare
  heat : t.heat = { s.heat with
    setpoint := t.heat.setpoint, source := t.heat.source, effective := t.heat.effective, stages := t.heat.stages }
  stages : t.heat.stages.length = s.heat.stages.length
  co : t.air.co = s.air.co
  no2 : t.air.no2 = s.air.no2
  gasClass : t.air.gasClass = s.air.gasClass
  netFlow : t.air.netFlow = s.air.netFlow
  overrides : t.overrides = s.overrides
  alarms : t.alarms = s.alarms
  alloc : t.alloc = s.alloc

theorem PublishFrame.trans {a b c : State} (h : PublishFrame a b) (k : PublishFrame b c) : PublishFrame a c where
  pending := k.pending.trans h.pending
  clock := k.clock.trans h.clock
  start := k.start.trans h.start
  line := k.line.trans h.line
  view := k.view.trans h.view
  shift := k.shift.trans h.shift
  traffic := by rw [k.traffic, h.traffic]
  manual := k.manual.trans h.manual
  channels := k.channels.trans h.channels
  docks := k.docks.trans h.docks
  doors := k.doors.trans h.doors
  heat := by rw [k.heat, h.heat]
  stages := k.stages.trans h.stages
  co := k.co.trans h.co
  no2 := k.no2.trans h.no2
  gasClass := k.gasClass.trans h.gasClass
  netFlow := k.netFlow.trans h.netFlow
  overrides := k.overrides.trans h.overrides
  alarms := k.alarms.trans h.alarms
  alloc := k.alloc.trans h.alloc

theorem settleBay_frame (before s : State) : PublishFrame s (settleBay before s) := by
  have hk := settleTraffic_kept s.cfg.gate.vacancy s.clock before.traffic.uncertain s.traffic
  obtain ⟨h1, h2, h3⟩ := followOccupied_kept s.clock s.cfg.lighting.vacatingHold
    (occupied (settleTraffic s.cfg.gate.vacancy s.clock before.traffic.uncertain s.traffic)) s.lighting
  unfold settleBay
  constructor <;> first | rfl | exact hk | exact h3 | exact congrArg _ h1 | exact congrArg _ h2

theorem settleBoost_records (now recovery : Nat) (d : Doors) : (settleBoost now recovery d).records = d.records := by
  unfold settleBoost
  dsimp only
  (repeat' split) <;> rfl

theorem settleDoors_frame (s : State) : PublishFrame s (settleDoors s) := by
  unfold settleDoors
  constructor <;>
    first
    | rfl
    | exact alongside_length _ _ _
    | (change List.map Door.bare (List.map demandCurtain (settleBoost _ _ _).records) = _
       rw [settleBoost_records, List.map_map]
       rfl)

theorem settleSetpoint_frame (s : State) : PublishFrame s (settleSetpoint s) := by
  unfold settleSetpoint judgeCalls formSetpoint
  constructor <;> first | rfl | simp

theorem settleFans_frame (s : State) : PublishFrame s (settleFans s) := by
  unfold settleFans
  constructor <;> rfl

theorem settleChannels_frame (s : State) : PublishFrame s (settleChannels s) := by
  unfold settleChannels
  constructor <;> first | rfl | simp

theorem settleStages_frame (s : State) : PublishFrame s (settleStages s) := by
  unfold settleStages
  constructor <;> first | rfl | simp

/-- What the units' publishing leaves (R154). -/
theorem publish_frame (before s : State) : PublishFrame s (publish before s) :=
  (settleBay_frame before s).trans ((settleDoors_frame _).trans ((settleSetpoint_frame _).trans
    ((settleFans_frame _).trans ((settleChannels_frame _).trans (settleStages_frame _)))))

/-- The lighting unit's fields that only the occupied signal moves are those after `settleBay` (R76). -/
theorem publish_bay (before s : State) :
    (publish before s).traffic = (settleBay before s).traffic ∧
      (publish before s).lighting.bay = (settleBay before s).lighting.bay ∧
      (publish before s).lighting.leadInDue = (settleBay before s).lighting.leadInDue ∧
      (publish before s).lighting.vacatingDue = (settleBay before s).lighting.vacatingDue := by
  simp [publish, settleStages, settleChannels, settleFans, settleSetpoint, settleDoors]

/-- Boost and the open-unsealed count after the units' publishing (R101, R102). -/
theorem publish_boost (before s : State) :
    (publish before s).doors.openUnsealed = (settleBoost s.clock s.cfg.doors.recovery s.doors).openUnsealed ∧
      (publish before s).doors.boost = (settleBoost s.clock s.cfg.doors.recovery s.doors).boost ∧
      (publish before s).doors.recoveryDue = (settleBoost s.clock s.cfg.doors.recovery s.doors).recoveryDue := by
  simp [publish, settleStages, settleChannels, settleFans, settleSetpoint, settleDoors, settleBay, State.cfg]

theorem settleBoost_count (now recovery : Nat) (d : Doors) :
    (settleBoost now recovery d).openUnsealed = countUnsealed d.records := by
  unfold settleBoost
  dsimp only
  (repeat' split) <;> first | rfl | (dsimp only; omega)

theorem takesFan2_false (source : FanSource) :
    takesFan2 source = false ↔ source ≠ .critical ∧ source ≠ .vent ∧ source ≠ .assist := by
  cases source <;> simp [takesFan2]

/-- The balancing flow after fan 2's demand is resolved (R132, R133). -/
theorem settleFans_balancing (s : State) : (settleFans s).air.balancing =
    if s.view.link = .joined ∧ takesFan2 (settleFans s).air.fan2.source = false then s.air.balancing else 0 := by
  have h : (settleFans s).air.balancing = if takesFan2 (settleFans s).air.fan2.source then 0
      else if s.view.link = .joined then s.air.balancing else 0 := rfl
  rw [h]
  cases takesFan2 (settleFans s).air.fan2.source <;> simp

/-- The threshold calls after the units' publishing (R112). -/
theorem publish_calls (before s : State) :
    (publish before s).heat.stages.map Stage.call =
      (judgeCallsFrom s.cfg.heat s.heat.fault s.heat.last (publish before s).heat.effective 0 s.heat.stages).map
        Stage.call := by
  simp [publish, settleStages, settleChannels, settleFans, settleSetpoint, settleDoors, settleBay, State.cfg, judgeCalls,
    formSetpoint, formStages_calls]

/-- The balancing flow after the units' publishing (R132, R133). -/
theorem publish_balancing (before s : State) : (publish before s).air.balancing =
    if s.view.link = .joined ∧ takesFan2 (publish before s).air.fan2.source = false then s.air.balancing else 0 :=
  settleFans_balancing (settleSetpoint (settleDoors (settleBay before s)))

/-- The bay lighting state after occupied is judged, with its two timers (R76). -/
theorem followOccupied_bay (now hold : Nat) (occ : Bool) (l : Lighting) :
    (followOccupied now hold occ l).bay =
        (if occ then .occupied else if l.bay = .occupied then .vacating else l.bay) ∧
      (followOccupied now hold occ l).leadInDue =
        (if (followOccupied now hold occ l).bay = l.bay then l.leadInDue else none) ∧
      (followOccupied now hold occ l).vacatingDue =
        (if (followOccupied now hold occ l).bay = l.bay then l.vacatingDue
          else if occ then none else some (now + hold * 1000)) := by
  unfold followOccupied
  cases occ <;> cases h : l.bay <;> simp [h]

/-! ## The end of an event -/

@[simp] theorem measured_pending (s : State) : (reportAlarms (measure s)).pending = s.pending := by
  simp [reportAlarms, measure]

@[simp] theorem measured_clock (s : State) : (reportAlarms (measure s)).clock = s.clock := by
  simp [reportAlarms, measure]

@[simp] theorem measured_start (s : State) : (reportAlarms (measure s)).start = s.start := by
  simp [reportAlarms, measure]

@[simp] theorem measured_line (s : State) : (reportAlarms (measure s)).line = s.line := by
  simp [reportAlarms, measure]

@[simp] theorem measured_view (s : State) : (reportAlarms (measure s)).view = s.view := by
  simp [reportAlarms, measure]

@[simp] theorem measured_traffic (s : State) : (reportAlarms (measure s)).traffic = s.traffic := by
  simp [reportAlarms, measure]

@[simp] theorem measured_lighting (s : State) : (reportAlarms (measure s)).lighting = s.lighting := by
  simp [reportAlarms, measure]

@[simp] theorem measured_doors (s : State) : (reportAlarms (measure s)).doors = s.doors := by
  simp [reportAlarms, measure]

@[simp] theorem measured_heat (s : State) : (reportAlarms (measure s)).heat = s.heat := by
  simp [reportAlarms, measure]

@[simp] theorem measured_overrides (s : State) : (reportAlarms (measure s)).overrides = s.overrides := by
  simp [reportAlarms, measure]

/-- The shift tracker after the draws are formed: only the peak P accumulator may differ (R54). -/
theorem measured_shift (s : State) :
    (reportAlarms (measure s)).shift = { s.shift with peak := (reportAlarms (measure s)).shift.peak } := by
  simp [reportAlarms, measure]

/-- The air unit after the draws are formed: only the net flow may differ (R124). -/
theorem measured_air (s : State) :
    (reportAlarms (measure s)).air = { s.air with netFlow := (reportAlarms (measure s)).air.netFlow } := by
  simp [reportAlarms, measure]

theorem measured_netFlow (s : State) : (reportAlarms (measure s)).air.netFlow =
    fanFlow s.cfg.air.fan1.flow s.air.fan1 + fanFlow s.cfg.air.fan2.flow s.air.fan2 := by
  simp [reportAlarms, measure, State.cfg]

/-- The peak P accumulator after the draws are formed takes a changed P that is above it (R54, R156). -/
theorem measured_peak (s : State) : (reportAlarms (measure s)).shift.peak =
    if (reportAlarms (measure s)).alloc.reported = s.alloc.reported then s.shift.peak
    else max s.shift.peak (reportAlarms (measure s)).alloc.reported := rfl

theorem alarmCauses_report (s : State) : alarmCauses (reportAlarms s) = alarmCauses s := rfl

/-- The alarm flags follow the causes of the state as it then stands (R149). -/
theorem measured_alarms (s : State) : (reportAlarms (measure s)).alarms =
    updateAlarms s.cfg.alarms.latchedModes (packFlags (alarmCauses (reportAlarms (measure s)))) s.alarms := by
  have ha : (measure s).alarms = s.alarms := by simp [measure]
  have hc : (measure s).cfg = s.cfg := by simp [measure, State.cfg]
  rw [alarmCauses_report, ← ha, ← hc]
  rfl

theorem measured_loads (s : State) : loadList (reportAlarms (measure s)) = loadList s := by
  simp [reportAlarms, measure, State.cfg, loadList]

/-- The allocator after the draws are formed: only E and P may differ (R156). -/
theorem measured_alloc (s : State) :
    (reportAlarms (measure s)).alloc = { s.alloc with
      energised := energisedDraw (loadList s), reported := max (energisedDraw (loadList s)) s.alloc.measured } := by
  simp [reportAlarms, measure]

/-- Whether the summaries are offered, and that offering them touches only the transmit queue (R149, R20). -/
theorem offerSummaries_line (before s : State) :
    (offerSummaries before s).line = if s.view.link ≠ .silent ∧ (s.alarms ≠ before.alarms ∨ before.view.link = .silent) then
      insertBulletin (.alarm s.alarms.active s.alarms.latched) s.line else s.line := by
  unfold offerSummaries offer
  by_cases hs : s.view.link = .silent
  · simp [hs]
  · by_cases ha : s.alarms = before.alarms <;> by_cases hb : before.view.link = .silent <;> simp [hs, ha, hb]

/-- Offering the summaries touches only the transmit queue. -/
theorem offerSummaries_cases (before s : State) :
    offerSummaries before s = s ∨
      offerSummaries before s = s.setLine (insertBulletin (.alarm s.alarms.active s.alarms.latched) s.line) := by
  unfold offerSummaries offer
  (repeat' split) <;> first | exact .inl rfl | exact .inr rfl

theorem insertBulletin_lineFault (b : Bulletin) (l : Line) : (insertBulletin b l).lineFault = l.lineFault := by
  cases b <;> simp only [insertBulletin, offerAlarm]
  (repeat' split) <;> rfl

/-- The causes of the alarm flags do not lie in the transmit queue. -/
theorem alarmCauses_insert (b : Bulletin) (s : State) : alarmCauses (s.setLine (insertBulletin b s.line)) = alarmCauses s := by
  simp only [alarmCauses, State.setLine_line, insertBulletin_lineFault]
  rfl

/-- The end of an event leaves everything that no demand, grant, output, alarm flag, occupancy correction or ALARM offer
touches, and hands on what the units' rules give. -/
theorem finish_frame (before : State) (work : Work) (s : State) : EventFrame before s (finish before work s) := by
  have hp := publish_frame before s
  have hb := publish_bay before s
  have hd := publish_boost before s
  have hbal := publish_balancing before s
  have hcalls := publish_calls before s
  have hl := settleLoads_frame ((publish before s).heat.stages.length + 2) (workFor before work (publish before s))
    (publish before s)
  have hsource : (settleLoads ((publish before s).heat.stages.length + 2) (workFor before work (publish before s))
      (publish before s)).air.fan2.source = (publish before s).air.fan2.source :=
    congrArg (fun v => v.fan2.1) (settleLoads_view _ _ _)
  have hdem := finish_demands before work s
  have hj := settleTraffic_judged s.cfg.gate.vacancy s.clock before.traffic.uncertain s.traffic
  obtain ⟨hcf, hps⟩ := publish_stages before s
  obtain ⟨hset, hsw⟩ := settleLoads_stages ((publish before s).heat.stages.length + 2)
    (workFor before work (publish before s)) (publish before s) hcf (by omega)
  obtain ⟨hout, hmov⟩ := settleLoads_outputs ((publish before s).heat.stages.length + 2)
    (workFor before work (publish before s)) (publish before s) (by omega)
  have hmoved := (publish_outputs before s).trans hmov
  unfold finish at hdem ⊢
  dsimp only at hdem ⊢
  generalize settleLoads ((publish before s).heat.stages.length + 2) (workFor before work (publish before s))
    (publish before s) = w at hl hset hsw hout hmoved hsource hdem ⊢
  generalize publish before s = p at hp hb hd hbal hcalls hl hps hsw hcf hsource ⊢
  rw [hp.clock] at hsw
  obtain ⟨hb0, hb1, hb2, hb3⟩ := hb
  obtain ⟨hd1, hd2, hd3⟩ := hd
  have ht : w.traffic = p.traffic := hl.traffic
  have hcfg : w.cfg = s.cfg := congrArg Start.config (hl.start.trans hp.start)
  have hline : (reportAlarms (measure w)).line = s.line := by rw [measured_line, hl.line, hp.line]
  have hoff := offerSummaries_line before (reportAlarms (measure w))
  obtain ⟨l, hx, hc⟩ : ∃ l, offerSummaries before (reportAlarms (measure w)) = (reportAlarms (measure w)).setLine l ∧
      alarmCauses ((reportAlarms (measure w)).setLine l) = alarmCauses (reportAlarms (measure w)) := by
    rcases offerSummaries_cases before (reportAlarms (measure w)) with h | h
    · exact ⟨_, h.trans rfl, rfl⟩
    · exact ⟨_, h, alarmCauses_insert _ _⟩
  rw [hx] at hdem hoff ⊢
  have hm : EventFrame
      { before with alarms := (reportAlarms (measure w)).alarms, view := { before.view with link := .listen } } s
      (reportAlarms (measure w)) :=
    { pending := by rw [measured_pending, hl.pending, hp.pending]
      clock := by rw [measured_clock, hl.clock, hp.clock]
      start := by rw [measured_start, hl.start, hp.start]
      line := by rw [if_neg (by simp), hline]
      view := by rw [measured_view, hl.view, hp.view]
      shift := by rw [measured_shift, hl.shift, hp.shift]
      peak := by have h := measured_peak w; rwa [hl.shift, hp.shift, hl.reported, hp.alloc] at h
      traffic := by rw [measured_traffic, ht]; exact hp.traffic
      count := by rw [measured_traffic, ht, hb0]; exact hj.1
      uncertain := by rw [measured_traffic, ht, hb0]; exact hj.2.1
      vacancy := by rw [measured_traffic, ht, hb0]; exact hj.2.2
      bay := by
        rw [measured_lighting, measured_traffic, ht, hl.bay, hb1, hb0]
        exact (followOccupied_bay _ _ _ _).1
      leadIn := by
        rw [measured_lighting, hl.bay, hl.leadIn, hb1, hb2]
        exact (followOccupied_bay _ _ _ _).2.1
      vacating := by
        rw [measured_lighting, measured_traffic, ht, hl.bay, hl.vacating, hb1, hb3, hb0]
        exact (followOccupied_bay _ _ _ _).2.2
      manual := by rw [measured_lighting, hl.manual, hp.manual]
      doors := by rw [measured_doors, hl.doors, hp.doors]
      openUnsealed := by rw [measured_doors, hl.openUnsealed, hd1, settleBoost_count]
      boost := by rw [measured_doors, hl.boost, hd2]
      recovery := by rw [measured_doors, hl.recovery, hd3]
      heat := by rw [measured_heat, hl.heat, hp.heat]
      calls := by rw [measured_heat, hl.calls, hcalls, hl.heat]
      switches := by
        rw [measured_heat]
        intro hpos k st st' h1 h2
        have hpos' : ∀ c ∈ p.cfg.heat.stages, 0 < c.minOff := by rw [State.cfg, hp.start]; exact hpos
        exact (List.forall₂_iff_get.mp (hps.trans (hsw hpos'))).2 |> fun h => by
          obtain ⟨i1, e1⟩ := List.getElem?_eq_some_iff.mp h1
          obtain ⟨i2, e2⟩ := List.getElem?_eq_some_iff.mp h2
          have := h k i1 i2
          rwa [List.get_eq_getElem, List.get_eq_getElem, e1, e2] at this
      settled := by
        rw [measured_heat]
        intro k c st' h1 h2
        have h := hset k c st' (by rw [hcfg]; exact h1) h2
        rwa [hl.clock, hp.clock] at h
      demands := { hdem with }
      lights := by rw [measured_lighting]; exact hout.lights
      lightMoves := by
        rw [measured_lighting]
        intro i c c' h1 h2
        obtain ⟨i1, e1⟩ := List.getElem?_eq_some_iff.mp h1
        obtain ⟨i2, e2⟩ := List.getElem?_eq_some_iff.mp h2
        have h := (List.forall₂_iff_get.mp hmoved.lights).2 i i1 i2
        rwa [List.get_eq_getElem, List.get_eq_getElem, e1, e2] at h
      fan1 := by rw [measured_air]; exact ⟨hout.fan1, hmoved.fan1⟩
      fan2 := by rw [measured_air]; exact ⟨hout.fan2, hmoved.fan2⟩
      docks := by rw [measured_lighting]; exact hout.docks
      curtains := by rw [measured_doors]; exact hout.curtains
      co := by rw [measured_air]; exact hl.co.trans hp.co
      no2 := by rw [measured_air]; exact hl.no2.trans hp.no2
      gasClass := by rw [measured_air]; exact hl.gasClass.trans hp.gasClass
      balancing := by
        rw [measured_view, measured_air, hl.view, hp.view]
        simp only [hl.balancing, hbal, takesFan2_false, hsource]
      overrides := by rw [measured_overrides, hl.overrides, hp.overrides]
      alarms := by have h := measured_alarms w; rwa [hcfg, hl.alarms, hp.alarms] at h
      meter := by rw [measured_alloc]; exact hl.meter.trans (by rw [hp.alloc])
      energised := by rw [measured_alloc, measured_loads]
      reported := by
        have h : w.alloc.measured = s.alloc.measured := by
          rw [← hp.alloc]
          exact congrArg (fun a => a.measured) hl.meter
        rw [measured_alloc, measured_loads, h]
      netFlow := by rw [measured_netFlow, hcfg, measured_air] }
  rw [hline] at hoff
  exact { hm with
    line := hoff
    demands := hdem
    alarms := by rw [hc]; exact hm.alarms }

/-! ## Single fields after the end of an event -/

section Fields

variable (before : State) (work : Work) (s : State)

@[simp] theorem finish_pending : (finish before work s).pending = s.pending := (finish_frame before work s).pending
@[simp] theorem finish_clock : (finish before work s).clock = s.clock := (finish_frame before work s).clock
@[simp] theorem finish_start : (finish before work s).start = s.start := (finish_frame before work s).start
@[simp] theorem finish_view : (finish before work s).view = s.view := (finish_frame before work s).view
@[simp] theorem finish_overrides : (finish before work s).overrides = s.overrides := (finish_frame before work s).overrides

end Fields

end Sys2Proof.Machine
end

