-- ==== Sys2Proof/Laws/Grants.lean ====
section
/-! SUPPORT. What an event that recomputes does to the grants: the allocator's rounds come to rest, and the last of them
leaves requests, grants, settle delay and CAP_EXCEEDED as R155 and R157 to R163 give them. -/

namespace Sys2Proof.Machine

/-! ## A round withdraws HOLDING stages only -/

/-- Every configured stage has its record. -/
def StagesFormed (s : State) : Prop :=
  ∀ (k : Nat) (c : StageConfig) (st : Stage), s.cfg.heat.stages[k]? = some c → s.heat.stages[k]? = some st →
    StageFormed (stageRow s k st.call) st

/-- Is the stage HOLDING? -/
def isHolding (st : Stage) : Bool := st.demand = .holding

/-- The number of HOLDING stages. -/
def holdings (s : State) : Nat := s.heat.stages.countP isHolding

/-- The record of a stage's place. -/
def stageRecord (st : Stage) : Option Demand :=
  if st.demand = .none then none else st.tier.map (fun t => { setting := 1, tier := t })

theorem StageDemandOk.formed {row : StageCall} {st : Stage} (h : StageDemandOk row st) : StageFormed row st := by
  unfold StageDemandOk at h
  unfold StageFormed
  cases row with
  | called t => exact h
  | released i =>
    dsimp only at h ⊢
    split
    · rwa [if_pos (by assumption)] at h
    · rw [if_neg (by assumption)] at h
      exact ⟨h.1, h.2.1⟩

/-- A stage that is switched and forms its demand afresh keeps its record, or was HOLDING, is cut now and loses it. -/
theorem switched_record (now : Nat) (c : StageConfig) (row : StageCall) (st : Stage) (h : StageFormed row st) :
    (stageRecord (formStage now c row (switchStage now c st)) = stageRecord st ∧
      isHolding (formStage now c row (switchStage now c st)) = isHolding st) ∨
    (stageRecord (formStage now c row (switchStage now c st)) ≠ stageRecord st ∧
      isHolding st = true ∧ isHolding (formStage now c row (switchStage now c st)) = false ∧
      (formStage now c row (switchStage now c st)).since = now) := by
  rcases st with ⟨on, since, call, demand, tier, granted⟩
  unfold StageFormed at h
  cases row with
  | called t =>
    obtain ⟨rfl, rfl⟩ := h
    refine .inl ?_
    unfold switchStage
    (repeat' split) <;> simp [formStage, stageRecord, isHolding]
  | released i =>
    cases on with
    | false =>
      obtain ⟨rfl, rfl⟩ := h
      refine .inl ?_
      simp [formStage, switchStage, noDemand, stageRecord, isHolding]
    | true =>
      obtain ⟨rfl, rfl, rfl⟩ := h
      cases granted with
      | false =>
        refine .inr ?_
        simp [formStage, switchStage, noDemand, stageRecord, isHolding]
      | true =>
        by_cases hm : minOnElapsed now c ⟨true, since, call, .holding, some 3, true⟩ = true
        · refine .inr ?_
          simp [formStage, switchStage, noDemand, stageRecord, isHolding, hm]
        · refine .inl ?_
          simp [formStage, switchStage, stageRecord, isHolding, hm]

/-- The records of the configured stages' places. -/
def stageRecords (cs : List StageConfig) (sts : List Stage) : List (Option Demand) :=
  List.zipWith (fun _ st => stageRecord st) cs sts

/-- The same with the rated powers beside them. -/
def ratedRecords (cs : List StageConfig) (sts : List Stage) : List (Nat × Option Demand) :=
  List.zipWith (fun c st => (c.rated, stageRecord st)) cs sts

/-- The stages after a round: the records stand, or some differ, fewer stages are HOLDING and one was cut now. -/
theorem switched_records (now : Nat) (w hold : Bool) (h : Heat) (k : Nat) (cs : List StageConfig) (sts : List Stage)
    (hf : ∀ (j : Nat) (c : StageConfig) (st : Stage), cs[j]? = some c → sts[j]? = some st →
      StageFormed (stageCall w hold h (k + j) st.call) st) :
    (ratedRecords cs (formStages now w hold h k cs (switchStages now cs sts)) = ratedRecords cs sts ∧
      (formStages now w hold h k cs (switchStages now cs sts)).countP isHolding = sts.countP isHolding) ∨
    (stageRecords cs (formStages now w hold h k cs (switchStages now cs sts)) ≠ stageRecords cs sts ∧
      (formStages now w hold h k cs (switchStages now cs sts)).countP isHolding < sts.countP isHolding ∧
      ∃ st ∈ formStages now w hold h k cs (switchStages now cs sts), st.since = now) := by
  induction cs generalizing k sts with
  | nil => cases sts <;> exact .inl ⟨rfl, rfl⟩
  | cons c cs ih =>
    cases sts with
    | nil => exact .inl ⟨rfl, rfl⟩
    | cons st sts =>
      have h1 := switched_record now c (stageCall w hold h k st.call) st (by have := hf 0 c st rfl rfl; exact this)
      have hcall : (switchStage now c st).call = st.call := switchStage_call _ _ _
      have h2 := ih (k + 1) sts fun j c' st' hc hst => by
        have := hf (j + 1) c' st' (by simpa using hc) (by simpa using hst)
        rwa [Nat.add_comm j 1, ← Nat.add_assoc] at this
      simp only [switchStages, formStages, hcall, ratedRecords, stageRecords, List.zipWith_cons_cons, List.countP_cons] at h2 ⊢
      generalize formStage now c (stageCall w hold h k st.call) (switchStage now c st) = x at h1 ⊢
      generalize formStages now w hold h (k + 1) cs (switchStages now cs sts) = xs at h2 ⊢
      rcases h1 with ⟨a1, a2⟩ | ⟨a0, a1, a2, a3⟩
      · rcases h2 with ⟨b1, b2⟩ | ⟨b0, b1, y, b2, b3⟩
        · exact .inl ⟨by rw [a1, b1], by rw [a2, b2]⟩
        · exact .inr ⟨fun e => b0 (List.cons.inj e).2, by rw [a2]; omega, y, by simp [b2], b3⟩
      · refine .inr ⟨fun e => a0 (List.cons.inj e).1, ?_, x, by simp, a3⟩
        rw [a1, a2]
        rcases h2 with ⟨-, b2⟩ | ⟨-, b1, -⟩
        · simp only [b2, Bool.false_eq_true, if_false, if_true]
          omega
        · simp only [Bool.false_eq_true, if_false, if_true]
          omega

/-! ## The load list's records -/

/-- The part of a load that its owner's grant and output do not touch. -/
def Load.asked (l : Load) : Fitting × Nat × Option Demand := (l.fitting, l.rated, l.demand)

/-- Requests are formed from what is asked (R155). -/
theorem formRequests_congr {l l' : List Load} (h : l.map Load.asked = l'.map Load.asked) (term : Nat) :
    formRequests l term = formRequests l' term := by
  have hs (t : Tier) : tierSum l t = tierSum l' t := by
    have hf : requestShare t = (fun a : Fitting × Nat × Option Demand => requestShare t ⟨a.1, a.2.1, a.2.2, 0, 0⟩) ∘ Load.asked := by
      funext x
      rfl
    unfold tierSum
    rw [hf, ← List.map_map, ← List.map_map, h]
  simp [formRequests, hs]

/-- The places before the heater stages. -/
def earlierLoads (s : State) : List Load :=
  List.zipWith channelLoad s.cfg.lighting.channels s.lighting.channels
    ++ List.zipWith dockLoad s.cfg.doors.docks s.lighting.docks
    ++ [fanLoad s.cfg.air.fan1 s.air.fan1, fanLoad s.cfg.air.fan2 s.air.fan2]
    ++ List.zipWith curtainLoad s.cfg.doors.curtains s.doors.records

theorem loadList_split (s : State) :
    loadList s = earlierLoads s ++ List.zipWith stageLoad s.cfg.heat.stages s.heat.stages := rfl

theorem map_zipWith_factor {α β γ δ ε : Type} (f : α → β → γ) (g : γ → δ) (e : β → ε) (f' : α → ε → δ)
    (h : ∀ a b, g (f a b) = f' a (e b)) (as : List α) (bs : List β) :
    (List.zipWith f as bs).map g = List.zipWith f' as (bs.map e) := by
  induction as generalizing bs with
  | nil => simp
  | cons a as ih => cases bs <;> simp [h, ih]

/-- What the earlier places ask for is in the demand view. -/
theorem earlier_asked {s t : State} (h : demandView t = demandView s) :
    (earlierLoads t).map Load.asked = (earlierLoads s).map Load.asked := by
  have e1 : t.start = s.start := congrArg DemandView.start h
  have e2 : t.lighting.channels.map (fun c => (c.desired, c.tier)) = s.lighting.channels.map fun c => (c.desired, c.tier) :=
    congrArg DemandView.channels h
  have e3 : t.lighting.docks.map DockLight.demanded = s.lighting.docks.map DockLight.demanded :=
    congrArg DemandView.docks h
  have e4 : t.doors.records.map Door.curtainDemanded = s.doors.records.map Door.curtainDemanded := by
    have h4 := congrArg (fun v => v.records.map fun r => r.2.2) h
    simp only [demandView, List.map_map] at h4
    exact h4
  have e5 := congrArg DemandView.fan1 h
  have e6 := congrArg DemandView.fan2 h
  simp only [demandView, Prod.mk.injEq] at e5 e6
  have hch := fun x : State => map_zipWith_factor channelLoad Load.asked (fun c : Channel => (c.desired, c.tier))
    (fun c p => (.dimmable, c.rated, p.2.map fun t => ({ setting := p.1, tier := t } : Demand))) (fun _ _ => rfl)
    x.cfg.lighting.channels x.lighting.channels
  have hdk := fun x : State => map_zipWith_factor dockLoad Load.asked DockLight.demanded
    (fun r b => (.whole, r, if b then some { setting := 1, tier := 1 } else none)) (fun _ _ => rfl)
    x.cfg.doors.docks x.lighting.docks
  have hcu := fun x : State => map_zipWith_factor curtainLoad Load.asked Door.curtainDemanded
    (fun r b => (.whole, r, if b then some { setting := 1, tier := 1 } else none)) (fun _ _ => rfl)
    x.cfg.doors.curtains x.doors.records
  unfold earlierLoads
  simp only [List.map_append]
  rw [hch t, hch s, hdk t, hdk s, hcu t, hcu s, e2, e3, e4]
  simp [Load.asked, fanLoad, State.cfg, e1, e5, e6]

theorem stages_asked (cs : List StageConfig) (sts : List Stage) :
    (List.zipWith stageLoad cs sts).map Load.asked = (ratedRecords cs sts).map fun p => (.whole, p.1, p.2) := by
  induction cs generalizing sts with
  | nil => simp [ratedRecords]
  | cons c cs ih =>
    cases sts with
    | nil => simp [ratedRecords]
    | cons st sts =>
      have h := ih sts
      simp only [ratedRecords] at h ⊢
      simp [h, Load.asked, stageLoad, stageRecord]

theorem stages_records (cs : List StageConfig) (sts : List Stage) :
    (List.zipWith stageLoad cs sts).map Load.demand = stageRecords cs sts := by
  induction cs generalizing sts with
  | nil => simp [stageRecords]
  | cons c cs ih =>
    cases sts with
    | nil => simp [stageRecords]
    | cons st sts =>
      have h := ih sts
      simp only [stageRecords] at h ⊢
      simp [h, stageLoad, stageRecord]

/-- Two states with one demand view whose stages have the same records ask for the same. -/
theorem loadList_asked {s t : State} (h : demandView t = demandView s)
    (hr : ratedRecords s.cfg.heat.stages t.heat.stages = ratedRecords s.cfg.heat.stages s.heat.stages) :
    (loadList t).map Load.asked = (loadList s).map Load.asked := by
  have e1 : t.cfg = s.cfg := congrArg (fun v => v.start.config) h
  rw [loadList_split, loadList_split, List.map_append, List.map_append, earlier_asked h, e1, stages_asked, stages_asked, hr]

/-- Two states with one demand view and the same demand records have the same records of stages. -/
theorem stageRecords_of_demandRecords {s t : State} (h : demandView t = demandView s) (hd : demandRecords t = demandRecords s) :
    stageRecords s.cfg.heat.stages t.heat.stages = stageRecords s.cfg.heat.stages s.heat.stages := by
  have e1 : t.cfg = s.cfg := congrArg (fun v => v.start.config) h
  have he : (earlierLoads t).map Load.demand = (earlierLoads s).map Load.demand := by
    have h1 := congrArg (List.map fun a : Fitting × Nat × Option Demand => a.2.2) (earlier_asked h)
    simpa [List.map_map, Function.comp_def, Load.asked] using h1
  unfold demandRecords at hd
  rw [loadList_split, loadList_split, List.map_append, List.map_append, he, e1, stages_records, stages_records] at hd
  exact List.append_cancel_left hd

/-! ## Stages switched now -/

/-- A stage that was switched now is one still. -/
def KeptNow (now : Nat) (l l' : List Stage) : Prop := List.Forall₂ (fun a b : Stage => a.since = now → b.since = now) l l'

theorem KeptNow.refl (now : Nat) (l : List Stage) : KeptNow now l l := List.forall₂_same.mpr fun _ _ h => h

theorem KeptNow.trans {now : Nat} {a b c : List Stage} (h : KeptNow now a b) (k : KeptNow now b c) : KeptNow now a c := by
  induction h generalizing c with
  | nil => exact k
  | cons h1 _ ih =>
    cases k with
    | cons k1 ks => exact .cons (fun x => k1 (h1 x)) (ih ks)

theorem KeptNow.exists {now : Nat} {l l' : List Stage} (h : KeptNow now l l') (he : ∃ st ∈ l, st.since = now) :
    ∃ st ∈ l', st.since = now := by
  induction h with
  | nil => exact he
  | cons h1 _ ih =>
    obtain ⟨x, hx, hxn⟩ := he
    rcases List.mem_cons.mp hx with rfl | hx
    · exact ⟨_, by simp, h1 hxn⟩
    · obtain ⟨y, hy, hyn⟩ := ih ⟨x, hx, hxn⟩
      exact ⟨y, by simp [hy], hyn⟩

theorem formStages_keptNow (now : Nat) (w hold : Bool) (h : Heat) (k : Nat) (cs : List StageConfig) (sts : List Stage) :
    KeptNow now sts (formStages now w hold h k cs sts) := by
  induction cs generalizing k sts with
  | nil => cases sts <;> exact .refl _ _
  | cons c cs ih =>
    cases sts with
    | nil => exact .refl _ _
    | cons st sts =>
      refine .cons (fun hn => ?_) (ih _ _)
      unfold formStage
      cases stageCall w hold h k st.call with
      | called t => exact hn
      | released i =>
        dsimp only
        (repeat' split) <;> first | exact hn | rfl

theorem switchStages_keptNow (now : Nat) (cs : List StageConfig) (sts : List Stage) :
    KeptNow now sts (switchStages now cs sts) := by
  induction cs generalizing sts with
  | nil => cases sts <;> exact .refl _ _
  | cons c cs ih =>
    cases sts with
    | nil => exact .refl _ _
    | cons st sts =>
      refine .cons (fun hn => ?_) (ih _)
      unfold switchStage
      (repeat' split) <;> first | exact hn | rfl

theorem grantStages_keptNow (now : Nat) (sts : List Stage) (g : List Nat) :
    KeptNow now sts (alongside (fun (st : Stage) x => { st with granted := decide (x ≠ 0) }) sts g) := by
  induction sts generalizing g with
  | nil => cases g <;> exact .nil
  | cons st sts ih =>
    cases g with
    | nil => exact .refl _ _
    | cons x xs => exact .cons (fun h => h) (ih xs)

theorem round_keptNow (work : Work) (s : State) :
    KeptNow s.clock s.heat.stages (driveOwners (allocate work s)).heat.stages := by
  have hr : ∀ u : State, KeptNow u.clock u.heat.stages (realise u).heat.stages := by
    intro u
    unfold realise
    generalize grantedSettings u = g
    exact grantStages_keptNow _ _ _
  have ha : KeptNow s.clock s.heat.stages (allocate work s).heat.stages := by
    cases work with
    | none => exact .refl _ _
    | realise => exact hr s
    | recompute =>
      have h := hr (recompute s)
      rwa [recompute_heat, recompute_clock] at h
  refine ha.trans ?_
  rw [driveOwners_stages, ← allocate_clock work s]
  exact (switchStages_keptNow _ _ _).trans (formStages_keptNow _ _ _ _ _ _ _)

theorem settleLoads_keptNow (rounds : Nat) (work : Work) (s : State) :
    KeptNow s.clock s.heat.stages (settleLoads rounds work s).heat.stages := by
  induction rounds generalizing work s with
  | zero => exact .refl _ _
  | succ n ih =>
    have h := round_keptNow work s
    have hc : (driveOwners (allocate work s)).clock = s.clock := (driveOwners_clock _).trans (allocate_clock _ _)
    unfold settleLoads
    dsimp only
    split
    · exact h
    · exact h.trans (hc ▸ ih _ _)

/-! ## One round -/

theorem formStages_stages (now : Nat) (w hold : Bool) (h : Heat) (l : List Stage) (k : Nat) (cs : List StageConfig)
    (sts : List Stage) : formStages now w hold { h with stages := l } k cs sts = formStages now w hold h k cs sts := by
  induction cs generalizing k sts with
  | nil => cases sts <;> rfl
  | cons c cs ih => cases sts <;> simp [formStages, ih, stageCall]

/-- After the owners have acted the records stand and the same is asked, or fewer stages are HOLDING and one was cut now. -/
theorem driveOwners_rest (a : State) (hf : StagesFormed a) :
    (demandRecords (driveOwners a) = demandRecords a → (loadList (driveOwners a)).map Load.asked = (loadList a).map Load.asked) ∧
    (demandRecords (driveOwners a) ≠ demandRecords a →
      holdings (driveOwners a) < holdings a ∧ ∃ st ∈ (driveOwners a).heat.stages, st.since = a.clock) := by
  have hv := driveOwners_view a
  have hr := switched_records a.clock (isWorking a) (holdRules (rulingEffect a.overrides.heat)) a.heat 0
    a.cfg.heat.stages a.heat.stages (by
      intro j c st hc hst
      rw [Nat.zero_add]
      exact hf j c st hc hst)
  have hs : (driveOwners a).heat.stages = formStages a.clock (isWorking a) (holdRules (rulingEffect a.overrides.heat)) a.heat 0
      a.cfg.heat.stages (switchStages a.clock a.cfg.heat.stages a.heat.stages) := by
    rw [driveOwners_stages, formStages_stages]
  rw [← hs] at hr
  rcases hr with ⟨h1, -⟩ | ⟨h1, h2, h3⟩
  · have ha := loadList_asked hv h1
    refine ⟨fun _ => ha, fun hne => absurd ?_ hne⟩
    have h := congrArg (List.map fun x : Fitting × Nat × Option Demand => x.2.2) ha
    simpa [List.map_map, Function.comp_def, Load.asked, demandRecords] using h
  · exact ⟨fun he => absurd (stageRecords_of_demandRecords hv he) h1, fun _ => ⟨h2, h3⟩⟩

theorem driveOwners_alloc (s : State) : (driveOwners s).alloc = s.alloc := by
  simp [driveOwners, settleStages, driveStages, driveFans, driveCurtains, driveLights]

theorem settleStages_stagesFormed (s : State) : StagesFormed (settleStages s) := fun k c st hc hst =>
  (settleStages_demands s k c st hc hst).formed

theorem alongside_grants (sts : List Stage) (g : List Nat) (cs : List StageConfig) :
    ratedRecords cs (alongside (fun (st : Stage) x => { st with granted := decide (x ≠ 0) }) sts g) = ratedRecords cs sts := by
  induction sts generalizing g cs with
  | nil => cases g <;> rfl
  | cons st sts ih =>
    cases g with
    | nil => rfl
    | cons x xs =>
      cases cs with
      | nil => rfl
      | cons c cs =>
        have h := ih xs cs
        unfold ratedRecords at h ⊢
        exact congrArg (List.cons (c.rated, stageRecord st)) h

/-- A realisation asks for what was asked before, keeps the stages' records, and leaves the allocator. -/
theorem realised (s : State) :
    (loadList (realise s)).map Load.asked = (loadList s).map Load.asked ∧
      (StagesFormed s → StagesFormed (realise s)) ∧ holdings (realise s) = holdings s ∧ (realise s).alloc = s.alloc := by
  have hv := realise_view s
  have hst : (realise s).heat.stages = alongside (fun (st : Stage) x => { st with granted := decide (x ≠ 0) })
      s.heat.stages ((((grantedSettings s).drop s.lighting.channels.length).drop
        s.lighting.docks.length).drop 2 |>.drop s.doors.records.length) := by
    unfold realise
    generalize grantedSettings s = g
    rfl
  generalize ((((grantedSettings s).drop s.lighting.channels.length).drop
        s.lighting.docks.length).drop 2 |>.drop s.doors.records.length) = g at hst
  have hstart : (realise s).start = s.start := realise_start s
  refine ⟨loadList_asked hv (by rw [hst, alongside_grants]), ?_, ?_, ?_⟩
  · intro hf k c st hc hs
    have hfr := realise_frame s
    have hs' : (realise s).heat.stages[k]? = some st := hs
    rw [hst, alongside_getElem?] at hs'
    obtain ⟨x, hx, hxe⟩ := Option.map_eq_some_iff.mp hs'
    have hc' : s.cfg.heat.stages[k]? = some c := by
      have : (realise s).cfg.heat.stages[k]? = some c := hc
      rwa [State.cfg, hstart] at this
    have h := hf k c x hc' hx
    have hrow : stageRow (realise s) k st.call = stageRow s k x.call := by
      have h1 : (realise s).heat = { s.heat with stages := (realise s).heat.stages } := hfr.heat
      have h2 : (realise s).overrides = s.overrides := hfr.overrides
      have h3 : isWorking (realise s) = isWorking s := by
        unfold isWorking currentPage State.cfg
        rw [hstart, hfr.shift]
      have h4 : st.call = x.call := by rw [← hxe]; split <;> rfl
      unfold stageRow
      rw [h2, h3, h4, h1]
      rfl
    rw [hrow, ← hxe]
    cases g[k]? <;> exact h
  · show (realise s).heat.stages.countP isHolding = s.heat.stages.countP isHolding
    have h := alongside_map (fun st : Stage => st.demand) (fun (st : Stage) x => { st with granted := decide (x ≠ 0) })
      (fun _ _ => rfl) s.heat.stages g
    have hc : ∀ l : List Stage, l.countP isHolding = (l.map fun st : Stage => st.demand).countP (fun d => d = .holding) := by
      intro l
      rw [List.countP_map]
      rfl
    rw [hst, hc, hc, h]
  · unfold realise
    generalize grantedSettings s = g'
    rfl

/-- What the allocator does asks for what was asked before and keeps the stages' records; it leaves the allocator as a
recomputation does where one is asked for, and as it stands otherwise. -/
theorem allocated (work : Work) (s : State) :
    (loadList (allocate work s)).map Load.asked = (loadList s).map Load.asked ∧
      (StagesFormed s → StagesFormed (allocate work s)) ∧ holdings (allocate work s) = holdings s ∧
      (allocate work s).alloc = if work = .recompute then (recompute s).alloc else s.alloc := by
  cases work with
  | none => exact ⟨rfl, id, rfl, rfl⟩
  | realise => exact realised s
  | recompute =>
    obtain ⟨h1, h2, h3, h4⟩ := realised (recompute s)
    have hs : recompute s = s.setAlloc (recompute s).alloc := rfl
    refine ⟨h1.trans (by rw [hs]; rfl), fun hf => h2 (by rw [hs]; exact hf), h3.trans (by rw [hs]; rfl), h4⟩

/-! ## The rounds -/

/-- The applied grants of `a` stand at or below those of `b` in every tier. -/
def Grants.Le (a b : Grants) : Prop := a.g1 ≤ b.g1 ∧ a.g2 ≤ b.g2 ∧ a.g3 ≤ b.g3

theorem recompute_applied (s : State) (hj : s.view.link = .joined) : (recompute s).alloc.applied.Le s.alloc.applied := by
  simp only [recompute, State.setAlloc_view, hj, if_true, State.setAlloc_alloc, recomputeJoined, moveApplied, Grants.lesser]
  exact ⟨Nat.min_le_left _ _, Nat.min_le_left _ _, Nat.min_le_left _ _⟩

/-- What is asked decides the demand records. -/
theorem demandRecords_of_asked {s t : State} (h : (loadList t).map Load.asked = (loadList s).map Load.asked) :
    demandRecords t = demandRecords s := by
  have h' := congrArg (List.map fun x : Fitting × Nat × Option Demand => x.2.2) h
  simpa [List.map_map, Function.comp_def, Load.asked, demandRecords] using h'

/-- The rounds come to rest. Where they begin with a recomputation or change a demand record, the last of them recomputes a
state `q` that asks for what the result asks for, and where no stage is switched now `q` is the state they began with. -/
theorem settleLoads_last (rounds : Nat) (work : Work) (p : State) (hf : StagesFormed p) (hr : holdings p < rounds)
    (hw : work = .recompute ∨ demandRecords (settleLoads rounds work p) ≠ demandRecords p) :
    ∃ q : State, (settleLoads rounds work p).alloc = (recompute q).alloc ∧
      (loadList (settleLoads rounds work p)).map Load.asked = (loadList q).map Load.asked ∧
      q.view = p.view ∧ q.start = p.start ∧ q.clock = p.clock ∧ q.alloc.term = p.alloc.term ∧
      (p.view.link = .joined → q.alloc.applied.Le p.alloc.applied) ∧
      (q = p ∨ ∃ st ∈ (settleLoads rounds work p).heat.stages, st.since = p.clock) := by
  induction rounds generalizing work p with
  | zero => omega
  | succ n ih =>
    obtain ⟨h1, h2, h3, h4⟩ := allocated work p
    obtain ⟨h5, h6⟩ := driveOwners_rest (allocate work p) (h2 hf)
    have hk := settleLoads_keptNow n .recompute (driveOwners (allocate work p))
    have hal := driveOwners_alloc (allocate work p)
    have hfr := (allocate_frame work p).trans (driveOwners_frame _)
    unfold settleLoads at hw ⊢
    dsimp only at hw ⊢
    rw [hal.symm] at h4
    have hd : StagesFormed (driveOwners (allocate work p)) := settleStages_stagesFormed _
    rw [show (allocate work p).clock = p.clock from allocate_clock _ _, h3] at h6
    have h15 : demandRecords (driveOwners (allocate work p)) = demandRecords (allocate work p) →
        (loadList (driveOwners (allocate work p))).map Load.asked = (loadList p).map Load.asked :=
      fun e => (h5 e).trans h1
    generalize driveOwners (allocate work p) = d at h4 h6 h15 hk hfr hd hw ⊢
    split at hw
    · rename_i e
      rw [if_pos e]
      rcases hw with rfl | hw
      · exact ⟨p, h4, h15 e, rfl, rfl, rfl, rfl, fun _ => ⟨Nat.le_refl _, Nat.le_refl _, Nat.le_refl _⟩, .inl rfl⟩
      · exact absurd (demandRecords_of_asked (h15 e)) hw
    · rename_i e
      rw [if_neg e]
      obtain ⟨h7, h8⟩ := h6 e
      obtain ⟨q, k1, k2, k3, k4, k5, k6, k7, -⟩ := ih .recompute d hd (by omega) (.inl rfl)
      rw [hfr.clock] at hk
      refine ⟨q, k1, k2, k3.trans hfr.view, k4.trans hfr.start, k5.trans hfr.clock,
        k6.trans (congrArg (fun a => a.term) hfr.meter), ?_, .inr (hk.exists h8)⟩
      intro hj
      have h9 := k7 (by rw [hfr.view]; exact hj)
      have h10 : d.alloc.applied.Le p.alloc.applied := by
        rw [h4]
        split
        · exact recompute_applied p hj
        · exact ⟨Nat.le_refl _, Nat.le_refl _, Nat.le_refl _⟩
      exact ⟨h9.1.trans h10.1, h9.2.1.trans h10.2.1, h9.2.2.trans h10.2.2⟩

/-- A stage that is HOLDING is one of the stages. -/
theorem holdings_le (s : State) : holdings s ≤ s.heat.stages.length := List.countP_le_length

/-- What is asked is not changed by the forming of the draws, the alarm flags and the ALARM offer. -/
theorem measured_asked (before w : State) :
    loadList (offerSummaries before (reportAlarms (measure w))) = loadList w := by
  rcases offerSummaries_cases before (reportAlarms (measure w)) with h | h
  · rw [h, measured_loads]
  · rw [h, ← measured_loads w]
    rfl

theorem measured_rest (before w : State) :
    (offerSummaries before (reportAlarms (measure w))).view = w.view ∧
      (offerSummaries before (reportAlarms (measure w))).start = w.start ∧
      (offerSummaries before (reportAlarms (measure w))).clock = w.clock ∧
      (offerSummaries before (reportAlarms (measure w))).heat = w.heat ∧
      (offerSummaries before (reportAlarms (measure w))).alloc = { w.alloc with
        energised := energisedDraw (loadList w), reported := max (energisedDraw (loadList w)) w.alloc.measured } := by
  rcases offerSummaries_cases before (reportAlarms (measure w)) with h | h <;> rw [h]
  · exact ⟨measured_view w, measured_start w, measured_clock w, measured_heat w, measured_alloc w⟩
  · exact ⟨measured_view w, measured_start w, measured_clock w, measured_heat w, measured_alloc w⟩

/-- An event that asks for nothing and leaves the link state and the demand records, as published and as the owners then act on
them, leaves requests, grants, settle delay and CAP_EXCEEDED (R157). -/
theorem finish_stands (before s : State) (hl : s.view.link = before.view.link)
    (hp : demandRecords (publish before s) = demandRecords before)
    (hd : demandRecords (driveOwners (publish before s)) = demandRecords (publish before s)) :
    (finish before .none s).alloc = { s.alloc with
      energised := (finish before .none s).alloc.energised, reported := (finish before .none s).alloc.reported } := by
  have hf := publish_frame before s
  have hw : workFor before .none (publish before s) = .none := if_neg (by simp [hf.view, hl, hp])
  have ha : (settleLoads ((publish before s).heat.stages.length + 2) .none (publish before s)).alloc = s.alloc := by
    unfold settleLoads
    simp [allocate, hd, driveOwners_alloc, hf.alloc]
  unfold finish
  dsimp only
  rw [hw, (measured_rest before _).2.2.2.2, ha]

/-- An event whose end recomputes, as one that changes a demand record does, leaves the grants formed (R157 to R161, R163). -/
theorem finish_grants (before : State) (work : Work) (s : State)
    (hw : workFor before work (publish before s) = .recompute ∨ demandRecords (finish before work s) ≠ demandRecords before) :
    GrantsFormed s (finish before work s) := by
  have hp := publish_frame before s
  have hform : StagesFormed (publish before s) := settleStages_stagesFormed _
  have hw' : workFor before work (publish before s) = .recompute ∨
      demandRecords (settleLoads ((publish before s).heat.stages.length + 2) (workFor before work (publish before s))
        (publish before s)) ≠ demandRecords (publish before s) := by
    refine hw.elim .inl fun h => ?_
    by_cases hc : workFor before work (publish before s) = .recompute
    · exact .inl hc
    · refine .inr fun e => h ?_
      unfold workFor at hc
      split at hc
      · exact absurd rfl hc
      · rename_i hn
        unfold finish
        dsimp only
        rw [demandRecords, measured_asked, ← demandRecords, e]
        exact not_not.mp (not_or.mp hn).2
  obtain ⟨q, h1, h2, h3, h4, h5, h6, h7, h8⟩ := settleLoads_last ((publish before s).heat.stages.length + 2)
    (workFor before work (publish before s)) (publish before s) hform (by have := holdings_le (publish before s); omega) hw'
  have hfr := settleLoads_frame ((publish before s).heat.stages.length + 2) (workFor before work (publish before s))
    (publish before s)
  unfold finish
  dsimp only
  generalize settleLoads ((publish before s).heat.stages.length + 2) (workFor before work (publish before s))
    (publish before s) = w at h1 h2 h8 hfr ⊢
  have hpa : (publish before s).alloc = s.alloc := hp.alloc
  generalize publish before s = p at hp h3 h4 h5 h6 h7 h8 hfr hpa
  obtain ⟨m1, m2, m3, m4, m5⟩ := measured_rest before w
  have m6 := measured_asked before w
  generalize offerSummaries before (reportAlarms (measure w)) = t at m1 m2 m3 m4 m5 m6 ⊢
  have e1 : t.view = q.view := by rw [m1, hfr.view, h3]
  have e2 : t.start = q.start := by rw [m2, hfr.start, h4]
  have e3 : t.clock = q.clock := by rw [m3, hfr.clock, h5]
  have e4 : t.cfg = q.cfg := congrArg Start.config e2
  have e5 : formRequests (loadList t) = formRequests (loadList q) := by
    funext n
    exact formRequests_congr (by rw [m6, h2]) n
  have e6 : allowance t = allowance q := by unfold allowance; rw [e1, e4]
  have e7 : t.alloc.term = (recompute q).alloc.term := by rw [m5, h1]
  have e8 : (recompute q).alloc.term = q.alloc.term := congrArg (fun a => a.term) (recompute_frame q).meter
  have hq : t.alloc.requests = formRequests (loadList q) q.alloc.term ∧ t.alloc.computed = (recompute q).alloc.computed ∧
      t.alloc.applied = (recompute q).alloc.applied ∧ t.alloc.pendingDue = (recompute q).alloc.pendingDue ∧
      t.alloc.capExceeded = (recompute q).alloc.capExceeded := by
    rw [m5, h1]
    refine ⟨?_, rfl, rfl, rfl, rfl⟩
    by_cases hj : q.view.link = .joined <;>
      simp [recompute, hj, recomputeJoined, recomputeAllowance, moveApplied]
  obtain ⟨r1, r2, r3, r4, r5⟩ := hq
  have hst : standings t = standings (q.setAlloc { q.alloc with requests := formRequests (loadList q) q.alloc.term }) := by
    unfold standings State.nCfg State.own
    rw [e2, e1, r1]
    simp [e4]
  refine ⟨by rw [e5, r1, e7, e8], ?_, ?_, ?_, ?_, ?_⟩
  · intro hj
    rw [e1] at hj
    rw [r2, r1, hst, e4]
    simp [recompute, hj, recomputeJoined, moveApplied]
  · intro hj
    rw [e1] at hj
    rw [r5, hst, e4]
    simp [recompute, hj, recomputeJoined, moveApplied, shedComputation]
    rfl
  · intro hj
    rw [e1] at hj
    have h9 := recompute_applied q hj
    have h10 := h7 (by rw [← h3]; exact hj)
    rw [hpa] at h10
    rw [r3, r2]
    refine ⟨⟨h9.1.trans h10.1, h9.2.1.trans h10.2.1, h9.2.2.trans h10.2.2⟩, ?_⟩
    simp only [recompute, State.setAlloc_view, hj, if_true, State.setAlloc_alloc, recomputeJoined, moveApplied, Grants.lesser]
    exact ⟨Nat.min_le_right _ _, Nat.min_le_right _ _, Nat.min_le_right _ _⟩
  · intro hj hn
    rw [e1] at hj
    rcases h8 with rfl | ⟨st, hst', hc⟩
    · rw [r3, r2, r4, ← hpa, e3, e4]
      simp [recompute, hj, recomputeJoined, moveApplied]
      rfl
    · refine absurd ?_ (hn st (by rw [m4]; exact hst'))
      rw [hc, e3, h5]
  · intro hj
    rw [e1] at hj
    rw [r2, r3, r4, r5, e6]
    simp [recompute, hj, recomputeAllowance, allowance]

end Sys2Proof.Machine
end

