-- ==== Sys2Proof/Laws/Fitting.lean ====
section
/-! SUPPORT. What a local realisation grants: every place of the load list gets what R164 to R166 give it. -/

namespace Sys2Proof.Machine

/-! ## One load -/

/-- The largest number a search finds: it passes the test or is 0, and no number up to the bound that passes is larger. -/
theorem largestUpTo_spec (ok : Nat → Bool) (n : Nat) :
    largestUpTo ok n ≤ n ∧ (ok (largestUpTo ok n) = true ∨ largestUpTo ok n = 0) ∧
      ∀ x, x ≤ n → ok x = true → x ≤ largestUpTo ok n := by
  induction n with
  | zero => exact ⟨Nat.le_refl 0, .inr rfl, fun x h _ => h⟩
  | succ n ih =>
    unfold largestUpTo
    split
    · rename_i h
      exact ⟨Nat.le_refl _, .inl h, fun x hx _ => hx⟩
    · rename_i h
      refine ⟨by omega, ih.2.1, fun x hx ho => ih.2.2 x ?_ ho⟩
      rcases Nat.lt_or_ge n x with h1 | h1
      · exact absurd ((by omega : x = n + 1) ▸ ho) h
      · exact h1

/-- A load fitted against what is left gets the largest setting that fits (R166), and its nameplate is within what is left. -/
theorem fitLoad_fitted (l : Load) (desired left : Nat) :
    LoadFitted left desired { l with granted := fitLoad l desired left } ∧
      nameplate l.fitting l.rated (fitLoad l desired left) ≤ left := by
  rcases l with ⟨fitting, rated, demand, granted, present⟩
  cases fitting with
  | dimmable =>
    obtain ⟨h1, h2, h3⟩ := largestUpTo_spec (fun x => decide (nameplate .dimmable rated x ≤ left)) desired
    have h4 : nameplate .dimmable rated (fitLoad ⟨.dimmable, rated, demand, granted, present⟩ desired left) ≤ left := by
      rcases h2 with h2 | h2
      · exact of_decide_eq_true h2
      · change nameplate .dimmable rated (largestUpTo _ _) ≤ left
        rw [h2]
        simp [nameplate]
    exact ⟨⟨h1, h4, fun x hx hp => h3 x hx (decide_eq_true hp)⟩, h4⟩
  | stepped =>
    obtain ⟨h1, h2, h3⟩ := largestUpTo_spec (fun k => decide (nameplate .stepped rated (5 * k) ≤ left)) (desired / 5)
    have h4 : nameplate .stepped rated (fitLoad ⟨.stepped, rated, demand, granted, present⟩ desired left) ≤ left := by
      rcases h2 with h2 | h2
      · exact of_decide_eq_true h2
      · change nameplate .stepped rated (5 * largestUpTo _ _) ≤ left
        rw [h2]
        simp [nameplate, fanPower]
    refine ⟨⟨?_, ?_, h4, fun k hk hp => ?_⟩, h4⟩
    · exact (Nat.mul_le_mul_left 5 h1).trans (Nat.mul_div_le desired 5)
    · exact Nat.mul_mod_right 5 _
    · exact Nat.mul_le_mul_left 5 (h3 k (by omega) (decide_eq_true hp))
  | whole =>
    refine ⟨rfl, ?_⟩
    simp only [fitLoad, nameplate]
    by_cases h : rated ≤ left <;> simp [h]

/-! ## One tier -/

/-- Does a load's record carry tier `t`? -/
def inTier (t : Tier) (l : Load) : Bool := l.demand.any fun d => decide (d.tier = t)

theorem grantedDraw_cons (t : Tier) (l : Load) (ls : List Load) :
    grantedDraw t (l :: ls) = (if inTier t l then nameplate l.fitting l.rated l.granted else 0) + grantedDraw t ls := by
  unfold grantedDraw inTier
  by_cases h : (l.demand.any fun d => decide (d.tier = t)) = true <;> simp [h]

/-- One tier fitted: what is asked stands; the remainder is the budget less what is granted; a load of another tier or
without a record stands, and one of the tier gets what fits the rest (R165, R166). -/
theorem fitTier_spec (t : Tier) (left : Nat) (loads : List Load) :
    (fitTier t left loads).1.length = loads.length ∧
    (fitTier t left loads).2 + grantedDraw t (fitTier t left loads).1 = left ∧
    ∀ (k : Nat) (l l' : Load), loads[k]? = some l → (fitTier t left loads).1[k]? = some l' →
      l' = { l with granted := l'.granted } ∧ (inTier t l = false → l' = l) ∧
      ∀ d, l.demand = some d → d.tier = t →
        LoadFitted (left - grantedDraw t ((fitTier t left loads).1.take k)) d.setting l' := by
  induction loads generalizing left with
  | nil => exact ⟨rfl, by simp [fitTier, grantedDraw], fun k l l' h => by simp at h⟩
  | cons x xs ih =>
    have skip : inTier t x = false → fitTier t left (x :: xs) = (x :: (fitTier t left xs).1, (fitTier t left xs).2) := by
      intro h
      unfold inTier at h
      rw [fitTier]
      cases hd : x.demand with
      | none => rfl
      | some d =>
        rw [hd] at h
        simp only [Option.any_some, decide_eq_false_iff_not] at h
        simp [h]
    by_cases hx : inTier t x = true
    · obtain ⟨d, hd, ht⟩ : ∃ d, x.demand = some d ∧ d.tier = t := by
        unfold inTier at hx
        cases hd : x.demand with
        | none => simp [hd] at hx
        | some d => exact ⟨d, rfl, by simpa [hd] using hx⟩
      obtain ⟨f1, f2⟩ := fitLoad_fitted x d.setting left
      have take : fitTier t left (x :: xs) =
          ({ x with granted := fitLoad x d.setting left } ::
            (fitTier t (left - nameplate x.fitting x.rated (fitLoad x d.setting left)) xs).1,
            (fitTier t (left - nameplate x.fitting x.rated (fitLoad x d.setting left)) xs).2) := by
        rw [fitTier]
        simp only [hd, ht, if_true]
      obtain ⟨i1, i2, i3⟩ := ih (left - nameplate x.fitting x.rated (fitLoad x d.setting left))
      rw [take]
      have hin : inTier t { x with granted := fitLoad x d.setting left } = true := hx
      refine ⟨by simp [i1], ?_, ?_⟩
      · rw [grantedDraw_cons, if_pos hin]
        dsimp only
        omega
      · intro k l l' h1 h2
        cases k with
        | zero =>
          simp only [List.getElem?_cons_zero, Option.some.injEq] at h1 h2
          subst h1 h2
          refine ⟨rfl, fun h => by simp [hx] at h, fun e he het => ?_⟩
          obtain rfl : d = e := Option.some.inj (hd.symm.trans he)
          simpa [grantedDraw] using f1
        | succ n =>
          simp only [List.getElem?_cons_succ] at h1 h2
          obtain ⟨j1, j2, j3⟩ := i3 n l l' h1 h2
          refine ⟨j1, j2, fun e he het => ?_⟩
          rw [List.take_succ_cons, grantedDraw_cons, if_pos hin, ← Nat.sub_sub]
          exact j3 e he het
    · have hx' : inTier t x = false := by simpa using hx
      obtain ⟨i1, i2, i3⟩ := ih left
      rw [skip hx']
      refine ⟨by simp [i1], ?_, ?_⟩
      · rw [grantedDraw_cons, if_neg hx, Nat.zero_add]
        exact i2
      · intro k l l' h1 h2
        cases k with
        | zero =>
          simp only [List.getElem?_cons_zero, Option.some.injEq] at h1 h2
          subst h1 h2
          refine ⟨rfl, fun _ => rfl, fun e he het => ?_⟩
          simp [inTier, he, het] at hx'
        | succ n =>
          simp only [List.getElem?_cons_succ] at h1 h2
          obtain ⟨j1, j2, j3⟩ := i3 n l l' h1 h2
          refine ⟨j1, j2, fun e he het => ?_⟩
          rw [List.take_succ_cons, grantedDraw_cons, if_neg hx, Nat.zero_add]
          exact j3 e he het

/-! ## The whole list -/

/-- Two lists of loads that differ in granted settings alone, and not in those of tier `u`. -/
def SameTier (u : Tier) (a b : List Load) : Prop :=
  a.length = b.length ∧ ∀ (k : Nat) (x y : Load), a[k]? = some x → b[k]? = some y →
    y = { x with granted := y.granted } ∧ (inTier u x = true → y = x)

theorem SameTier.trans {u : Tier} {a b c : List Load} (h : SameTier u a b) (k : SameTier u b c) : SameTier u a c := by
  refine ⟨h.1.trans k.1, fun i x z h1 h3 => ?_⟩
  obtain ⟨hi, -⟩ := List.getElem?_eq_some_iff.mp h1
  obtain ⟨y, h2⟩ : ∃ y, b[i]? = some y := ⟨_, List.getElem?_eq_getElem (h.1 ▸ hi)⟩
  obtain ⟨p1, p2⟩ := h.2 i x y h1 h2
  obtain ⟨q1, q2⟩ := k.2 i y z h2 h3
  refine ⟨by rw [q1, p1], fun hx => ?_⟩
  have := p2 hx
  rw [this] at q2
  exact q2 hx

/-- What a tier is granted does not change with another tier's settings, on every first part of the list. -/
theorem SameTier.draw {u : Tier} {a b : List Load} (h : SameTier u a b) (k : Nat) :
    grantedDraw u (b.take k) = grantedDraw u (a.take k) := by
  induction a generalizing b k with
  | nil =>
    have : b = [] := List.length_eq_zero_iff.mp h.1.symm
    rw [this]
  | cons x xs ih =>
    cases b with
    | nil => simp [SameTier] at h
    | cons y ys =>
      cases k with
      | zero => rfl
      | succ n =>
        have ht : SameTier u xs ys := ⟨by simpa using h.1, fun k p q h1 h2 => h.2 (k + 1) p q (by simpa) (by simpa)⟩
        obtain ⟨h1, h2⟩ := h.2 0 x y rfl rfl
        have hin : inTier u y = inTier u x := by rw [h1]; rfl
        rw [List.take_succ_cons, List.take_succ_cons, grantedDraw_cons, grantedDraw_cons, ih ht n, hin]
        by_cases hx : inTier u x = true
        · rw [h2 hx]
        · simp [hx]

theorem fitTier_same (t u : Tier) (left : Nat) (loads : List Load) (h : u ≠ t) :
    SameTier u loads (fitTier t left loads).1 := by
  obtain ⟨h1, -, h3⟩ := fitTier_spec t left loads
  refine ⟨h1.symm, fun k x y hx hy => ?_⟩
  obtain ⟨p1, p2, -⟩ := h3 k x y hx hy
  refine ⟨p1, fun hu => p2 ?_⟩
  unfold inTier at hu ⊢
  cases hd : x.demand with
  | none => rfl
  | some d =>
    rw [hd] at hu
    simp only [Option.any_some, decide_eq_true_eq] at hu
    simpa [hu] using h

/-- A local realisation gives every place what R164 to R166 give it, and changes nothing but the granted settings. -/
theorem fitLoads_fitted (g : Grants) (loads : List Load) :
    Fitted g (fitLoads g loads) ∧ (fitLoads g loads).length = loads.length ∧
      ∀ (k : Nat) (x l : Load), loads[k]? = some x → (fitLoads g loads)[k]? = some l →
        l = { x with granted := l.granted } := by
  obtain ⟨l0, hl0⟩ : ∃ l0, l0 = loads.map fitTierZero := ⟨_, rfl⟩
  have z : ∀ (k : Nat) (x y : Load), loads[k]? = some x → l0[k]? = some y →
      y = { x with granted := y.granted } ∧ (x.demand = none → y.granted = 0) ∧
        ∀ d, x.demand = some d → d.tier = 0 → y.granted = d.setting := by
    intro k x y hx hy
    rw [hl0, List.getElem?_map, hx] at hy
    simp only [Option.map_some, Option.some.injEq] at hy
    subst hy
    unfold fitTierZero
    cases hd : x.demand with
    | none => exact ⟨rfl, fun _ => rfl, fun d he => nomatch he⟩
    | some d =>
      refine ⟨by by_cases h0 : d.tier = 0 <;> simp [h0, ← hd], nofun, fun e he ht => ?_⟩
      obtain rfl : d = e := Option.some.inj he
      simp [ht]
  obtain ⟨s1, r1, p1⟩ := fitTier_spec 1 g.g1 l0
  have e1 (u : Tier) (h : u ≠ 1) := fitTier_same 1 u g.g1 l0 h
  obtain ⟨a1, ha1⟩ : ∃ a, a = (fitTier 1 g.g1 l0).1 := ⟨_, rfl⟩
  obtain ⟨m1, hm1⟩ : ∃ a, a = (fitTier 1 g.g1 l0).2 := ⟨_, rfl⟩
  simp only [← ha1, ← hm1] at s1 r1 p1 e1
  obtain ⟨s2, r2, p2⟩ := fitTier_spec 2 (g.g2 + m1) a1
  have e2 (u : Tier) (h : u ≠ 2) := fitTier_same 2 u (g.g2 + m1) a1 h
  obtain ⟨a2, ha2⟩ : ∃ a, a = (fitTier 2 (g.g2 + m1) a1).1 := ⟨_, rfl⟩
  obtain ⟨m2, hm2⟩ : ∃ a, a = (fitTier 2 (g.g2 + m1) a1).2 := ⟨_, rfl⟩
  simp only [← ha2, ← hm2] at s2 r2 p2 e2
  obtain ⟨s3, r3, p3⟩ := fitTier_spec 3 (g.g3 + m2) a2
  have e3 (u : Tier) (h : u ≠ 3) := fitTier_same 3 u (g.g3 + m2) a2 h
  have hf : fitLoads g loads = (fitTier 3 (g.g3 + m2) a2).1 := by rw [hm2, ha2, hm1, ha1, hl0]; rfl
  rw [hf]
  generalize (fitTier 3 (g.g3 + m2) a2).1 = a3 at s3 p3 e3 ⊢
  have s0 : l0.length = loads.length := by rw [hl0]; simp
  have whole (u : Tier) {a b : List Load} (h : SameTier u a b) : grantedDraw u b = grantedDraw u a := by
    have := h.draw a.length
    rwa [List.take_length, h.1, List.take_length] at this
  have d1 : grantedDraw 1 a3 = grantedDraw 1 a1 := whole 1 ((e2 1 (by decide)).trans (e3 1 (by decide)))
  have d2 : grantedDraw 2 a3 = grantedDraw 2 a2 := whole 2 (e3 2 (by decide))
  have at_ (k : Nat) (l : Load) (h : a3[k]? = some l) : ∃ x y0 y1 y2, loads[k]? = some x ∧ l0[k]? = some y0 ∧
      a1[k]? = some y1 ∧ a2[k]? = some y2 := by
    obtain ⟨hi, -⟩ := List.getElem?_eq_some_iff.mp h
    exact ⟨_, _, _, _, List.getElem?_eq_getElem (by omega), List.getElem?_eq_getElem (by omega),
      List.getElem?_eq_getElem (by omega), List.getElem?_eq_getElem (by omega)⟩
  refine ⟨?_, ?_⟩
  · intro k l hl
    obtain ⟨x, y0, y1, y2, h, h0, h1, h2⟩ := at_ k l hl
    obtain ⟨z1, z2, z3⟩ := z k x y0 h h0
    obtain ⟨q1, q2, q3⟩ := p1 k y0 y1 h0 h1
    obtain ⟨q4, q5, q6⟩ := p2 k y1 y2 h1 h2
    obtain ⟨q7, q8, q9⟩ := p3 k y2 l h2 hl
    have f0 : y0.demand = x.demand := by rw [z1]
    have f1 : y1.demand = x.demand := by rw [q1, ← f0]
    have f2 : y2.demand = x.demand := by rw [q4, ← f1]
    have f3 : l.demand = x.demand := by rw [q7, ← f2]
    rw [f3]
    cases hd : x.demand with
    | none =>
      have n0 : ∀ (u : Tier) (w : Load), w.demand = x.demand → inTier u w = false := by
        intro u w hw
        unfold inTier
        rw [hw, hd]
        rfl
      dsimp only
      rw [q8 (n0 _ _ f2), q5 (n0 _ _ f1), q2 (n0 _ _ f0)]
      exact z2 hd
    | some d =>
      have n0 : ∀ (u : Tier) (w : Load), w.demand = x.demand → d.tier ≠ u → inTier u w = false := by
        intro u w hw hu
        unfold inTier
        rw [hw, hd]
        simpa using hu
      dsimp only
      have hcase : d.tier = 0 ∨ d.tier = 1 ∨ d.tier = 2 ∨ d.tier = 3 := by
        generalize d.tier = t
        revert t
        decide
      rcases hcase with ht | ht | ht | ht
      · rw [if_pos ht, q8 (n0 3 _ f2 (by rw [ht]; decide)), q5 (n0 2 _ f1 (by rw [ht]; decide)),
          q2 (n0 1 _ f0 (by rw [ht]; decide))]
        exact z3 d hd ht
      · rw [if_neg (by rw [ht]; decide), ht, q8 (n0 3 _ f2 (by rw [ht]; decide)), q5 (n0 2 _ f1 (by rw [ht]; decide)),
          ((e2 1 (by decide)).trans (e3 1 (by decide))).draw k]
        exact q3 d (f0.trans hd) ht
      · rw [if_neg (by rw [ht]; decide), ht, q8 (n0 3 _ f2 (by rw [ht]; decide)), (e3 2 (by decide)).draw k]
        have := q6 d (f1.trans hd) ht
        have hb : tierBudget g a3 2 = g.g2 + m1 := by
          simp only [tierBudget, d1]
          omega
        rw [hb]
        exact this
      · rw [if_neg (by rw [ht]; decide), ht]
        have := q9 d (f2.trans hd) ht
        have hb : tierBudget g a3 3 = g.g3 + m2 := by
          simp only [tierBudget, d1, d2]
          omega
        rw [hb]
        exact this
  · refine ⟨by omega, fun k x l hx hl => ?_⟩
    obtain ⟨x', y0, y1, y2, h, h0, h1, h2⟩ := at_ k l hl
    obtain rfl : x' = x := Option.some.inj (h.symm.trans hx)
    rw [(p3 k y2 l h2 hl).1, (p2 k y1 y2 h1 h2).1, (p1 k y0 y1 h0 h1).1, (z k x' y0 h h0).1]

/-! ## The load list after a realisation -/

/-- A load with its granted setting. -/
def grantTo (l : Load) (n : Nat) : Load := { l with granted := n }

theorem zipWith_append_drop {α β γ : Type} (f : α → β → γ) (as bs : List α) (g : List β) :
    List.zipWith f (as ++ bs) g = List.zipWith f as g ++ List.zipWith f bs (g.drop as.length) := by
  induction as generalizing g with
  | nil => simp
  | cons a as ih => cases g <;> simp [ih]

/-- Granted settings returned to the records of one owner are those of its places. -/
theorem grant_segment {α β : Type} (load : β → α → Load) (set_ : α → Nat → α) (ks : List β) (xs : List α) (g : List Nat)
    (hl : xs.length ≤ g.length)
    (h : ∀ (i : Nat) (k : β) (a : α) (n : Nat), ks[i]? = some k → xs[i]? = some a → g[i]? = some n →
      load k (set_ a n) = grantTo (load k a) n) :
    List.zipWith load ks (alongside set_ xs g) = List.zipWith grantTo (List.zipWith load ks xs) g := by
  induction xs generalizing ks g with
  | nil => cases ks <;> cases g <;> simp [alongside]
  | cons x xs ih =>
    cases g with
    | nil => simp at hl
    | cons n g =>
      cases ks with
      | nil => simp
      | cons k ks =>
        simp only [alongside, List.zipWith_cons_cons]
        rw [h 0 k x n rfl rfl rfl, ih ks g (by simpa using hl) fun i k' a m h1 h2 h3 => h (i + 1) k' a m h1 h2 h3]

/-- A whole load of the list is granted 0 or 1. -/
theorem Fitted.whole {g : Grants} {loads : List Load} (h : Fitted g loads) {k : Nat} {l : Load} (hl : loads[k]? = some l)
    (hf : l.fitting = .whole) (hd : ∀ d, l.demand = some d → d.setting = 1) : (decide (l.granted ≠ 0)).toNat = l.granted := by
  have hk := h k l hl
  cases hdm : l.demand with
  | none =>
    rw [hdm] at hk
    simp [hk]
  | some d =>
    rw [hdm] at hk
    dsimp only at hk
    split at hk
    · rw [hk, hd d hdm]
      rfl
    · unfold LoadFitted at hk
      rw [hf] at hk
      dsimp only at hk
      rw [hk]
      split <;> rfl

/-- A load fitted as a whole, whose desired setting is 1. -/
def IsWhole (l : Load) : Prop := l.fitting = .whole ∧ ∀ d, l.demand = some d → d.setting = 1

theorem dockLoad_whole (r : Nat) (d : DockLight) : IsWhole (dockLoad r d) := by
  refine ⟨rfl, fun e h => ?_⟩
  unfold dockLoad at h
  split at h <;> simp at h
  rw [← h]

theorem curtainLoad_whole (r : Nat) (d : Door) : IsWhole (curtainLoad r d) := by
  refine ⟨rfl, fun e h => ?_⟩
  unfold curtainLoad at h
  split at h <;> simp at h
  rw [← h]

theorem stageLoad_whole (c : StageConfig) (st : Stage) : IsWhole (stageLoad c st) := by
  refine ⟨rfl, fun e h => ?_⟩
  unfold stageLoad at h
  split at h <;> simp at h
  obtain ⟨t, -, rfl⟩ := h
  rfl

/-- The grant a realisation has for a whole load of a segment is 0 or 1. -/
theorem grant_whole (g : Grants) (pre seg post : List Load) (hw : ∀ l ∈ seg, IsWhole l) (i n : Nat) (hi : i < seg.length)
    (h : (((fitLoads g (pre ++ seg ++ post)).map Load.granted).drop pre.length)[i]? = some n) :
    (decide (n ≠ 0)).toNat = n := by
  obtain ⟨hf, hl, hp⟩ := fitLoads_fitted g (pre ++ seg ++ post)
  rw [List.getElem?_drop, List.getElem?_map, Option.map_eq_some_iff] at h
  obtain ⟨l, h1, rfl⟩ := h
  have hx : (pre ++ seg ++ post)[pre.length + i]? = some seg[i] := by
    rw [List.append_assoc, List.getElem?_append_right (by omega), Nat.add_sub_cancel_left, List.getElem?_append_left hi,
      List.getElem?_eq_getElem hi]
  obtain ⟨w1, w2⟩ := hw _ (List.getElem_mem hi)
  have he := hp _ _ _ hx h1
  refine hf.whole h1 ?_ fun d hd => w2 d ?_
  · rw [he]; exact w1
  · rw [he] at hd; exact hd

/-- A list of loads that differs from another in its granted settings is the other one with those settings. -/
theorem zipWith_grantTo (a b : List Load) (hl : b.length = a.length)
    (h : ∀ (k : Nat) (x l : Load), a[k]? = some x → b[k]? = some l → l = { x with granted := l.granted }) :
    List.zipWith grantTo a (b.map Load.granted) = b := by
  induction a generalizing b with
  | nil => simpa using hl
  | cons x xs ih =>
    cases b with
    | nil => simp at hl
    | cons y ys =>
      rw [List.map_cons, List.zipWith_cons_cons, ih ys (by simpa using hl) fun k p q h1 h2 => h (k + 1) p q h1 h2]
      exact congrArg (· :: ys) (h 0 x y rfl rfl).symm

/-- After a local realisation the load list is the one fitted to the applied grants (R164 to R167). -/
theorem realise_loads (s : State) (hs : ShapeOk s) (hr : s.start.running = true) :
    loadList (realise s) = fitLoads s.alloc.applied (loadList s) := by
  obtain ⟨-, hl, hp⟩ := fitLoads_fitted s.alloc.applied (loadList s)
  obtain ⟨C, hC⟩ : ∃ C, C = List.zipWith channelLoad s.cfg.lighting.channels s.lighting.channels := ⟨_, rfl⟩
  obtain ⟨D, hD⟩ : ∃ D, D = List.zipWith dockLoad s.cfg.doors.docks s.lighting.docks := ⟨_, rfl⟩
  obtain ⟨K, hK⟩ : ∃ K, K = List.zipWith curtainLoad s.cfg.doors.curtains s.doors.records := ⟨_, rfl⟩
  obtain ⟨H, hH⟩ : ∃ H, H = List.zipWith stageLoad s.cfg.heat.stages s.heat.stages := ⟨_, rfl⟩
  obtain ⟨F, hF⟩ : ∃ F, F = [fanLoad s.cfg.air.fan1 s.air.fan1, fanLoad s.cfg.air.fan2 s.air.fan2] := ⟨_, rfl⟩
  have hL : loadList s = C ++ D ++ F ++ K ++ H := by rw [hC, hD, hF, hK, hH]; rfl
  have nC : C.length = s.lighting.channels.length := by
    rw [hC, List.length_zipWith, hs.channels, hs.channelConfigs]; rfl
  have nD : D.length = s.lighting.docks.length := by
    rw [hD, List.length_zipWith, hs.docks hr, hs.doorConfigs, Nat.min_self]
  have nF : F.length = 2 := by rw [hF]; rfl
  have nK : K.length = s.doors.records.length := by
    rw [hK, List.length_zipWith, hs.doors hr]; exact Nat.min_self _
  have nH : H.length = s.heat.stages.length := by
    rw [hH, List.length_zipWith, hs.stages hr, Nat.min_self]
  obtain ⟨g, hg⟩ : ∃ g, g = grantedSettings s := ⟨_, rfl⟩
  have hg' : g = (fitLoads s.alloc.applied (C ++ D ++ F ++ K ++ H)).map Load.granted := by rw [hg, ← hL]; rfl
  have ng : g.length = C.length + D.length + F.length + K.length + H.length := by
    rw [hg, grantedSettings, List.length_map, hl, hL]
    simp only [List.length_append]
  have final : List.zipWith grantTo (loadList s) g = fitLoads s.alloc.applied (loadList s) := by
    rw [hg]
    exact zipWith_grantTo _ _ hl hp
  have whole {β γ : Type} (load : β → γ → Load) (w : ∀ k x, IsWhole (load k x)) (ks : List β) (xs : List γ) :
      ∀ l ∈ List.zipWith load ks xs, IsWhole l := by
    intro l h
    rw [List.mem_iff_getElem?] at h
    obtain ⟨i, h⟩ := h
    simp only [List.getElem?_zipWith_eq_some] at h
    obtain ⟨_, _, -, -, rfl⟩ := h
    exact w _ _
  have wD : ∀ l ∈ D, IsWhole l := hD ▸ whole _ dockLoad_whole _ _
  have wK : ∀ l ∈ K, IsWhole l := hK ▸ whole _ curtainLoad_whole _ _
  have wH : ∀ l ∈ H, IsWhole l := hH ▸ whole _ stageLoad_whole _ _
  have eC : List.zipWith channelLoad s.cfg.lighting.channels
      (alongside (fun (c : Channel) x => { c with granted := x }) s.lighting.channels g) = List.zipWith grantTo C g := by
    rw [hC]
    exact grant_segment _ _ _ _ _ (by omega) fun _ _ _ _ _ _ _ => rfl
  have eD : List.zipWith dockLoad s.cfg.doors.docks
      (alongside (fun (d : DockLight) x => { d with granted := decide (x ≠ 0) }) s.lighting.docks (g.drop C.length)) =
      List.zipWith grantTo D (g.drop C.length) := by
    rw [hD]
    refine grant_segment _ _ _ _ _ (by rw [List.length_drop]; omega) fun i k a n _ h2 h3 => ?_
    have hi : i < D.length := by rw [nD]; exact (List.getElem?_eq_some_iff.mp h2).1
    rw [hg', show C ++ D ++ F ++ K ++ H = C ++ D ++ (F ++ K ++ H) by simp] at h3
    have := grant_whole _ C D _ wD i n hi h3
    simp only [dockLoad, grantTo, this]
  have eK : List.zipWith curtainLoad s.cfg.doors.curtains
      (alongside (fun (d : Door) x => { d with curtainGranted := decide (x ≠ 0) }) s.doors.records
        (g.drop (C ++ D ++ F).length)) = List.zipWith grantTo K (g.drop (C ++ D ++ F).length) := by
    rw [hK]
    refine grant_segment _ _ _ _ _ (by rw [List.length_drop]; simp only [List.length_append]; omega)
      fun i k a n _ h2 h3 => ?_
    have hi : i < K.length := by rw [nK]; exact (List.getElem?_eq_some_iff.mp h2).1
    rw [hg'] at h3
    have := grant_whole _ (C ++ D ++ F) K _ wK i n hi h3
    simp only [curtainLoad, grantTo, this]
  have eH : List.zipWith stageLoad s.cfg.heat.stages
      (alongside (fun (st : Stage) x => { st with granted := decide (x ≠ 0) }) s.heat.stages
        (g.drop (C ++ D ++ F ++ K).length)) = List.zipWith grantTo H (g.drop (C ++ D ++ F ++ K).length) := by
    rw [hH]
    refine grant_segment _ _ _ _ _ (by rw [List.length_drop]; simp only [List.length_append]; omega)
      fun i k a n _ h2 h3 => ?_
    have hi : i < H.length := by rw [nH]; exact (List.getElem?_eq_some_iff.mp h2).1
    rw [hg', show C ++ D ++ F ++ K ++ H = C ++ D ++ F ++ K ++ H ++ [] by simp] at h3
    have := grant_whole _ (C ++ D ++ F ++ K) H _ wH i n hi h3
    simp only [stageLoad, grantTo, this]
  have eF : [fanLoad s.cfg.air.fan1 { s.air.fan1 with granted := (g.drop (C ++ D).length).getD 0 0 },
      fanLoad s.cfg.air.fan2 { s.air.fan2 with granted := (g.drop (C ++ D).length).getD 1 0 }] =
      List.zipWith grantTo F (g.drop (C ++ D).length) := by
    have : 2 ≤ (g.drop (C ++ D).length).length := by
      rw [List.length_drop, List.length_append]; omega
    rw [hF]
    match hd : g.drop (C ++ D).length with
    | [] => rw [hd] at this; simp at this
    | [_] => rw [hd] at this; simp at this
    | x :: y :: _ => rfl
  have shape : loadList (realise s) = List.zipWith grantTo C g ++ List.zipWith grantTo D (g.drop C.length)
      ++ List.zipWith grantTo F (g.drop (C ++ D).length) ++ List.zipWith grantTo K (g.drop (C ++ D ++ F).length)
      ++ List.zipWith grantTo H (g.drop (C ++ D ++ F ++ K).length) := by
    rw [← eC, ← eD, ← eF, ← eK, ← eH]
    have d2 : g.drop (C ++ D).length = (g.drop s.lighting.channels.length).drop s.lighting.docks.length := by
      rw [List.drop_drop, List.length_append, nC, nD]
    have d3 : g.drop (C ++ D ++ F).length = ((g.drop s.lighting.channels.length).drop s.lighting.docks.length).drop 2 := by
      rw [List.drop_drop, List.drop_drop, List.length_append, List.length_append, nC, nD, nF, Nat.add_assoc]
    have d4 : g.drop (C ++ D ++ F ++ K).length =
        (((g.drop s.lighting.channels.length).drop s.lighting.docks.length).drop 2).drop s.doors.records.length := by
      rw [List.drop_drop, List.drop_drop, List.drop_drop, List.length_append, List.length_append, List.length_append,
        nC, nD, nF, nK, Nat.add_assoc, Nat.add_assoc]
    rw [d2, d3, d4, nC]
    unfold realise
    rw [← hg]
    rfl
  rw [shape, ← zipWith_append_drop, ← zipWith_append_drop, ← zipWith_append_drop, ← zipWith_append_drop, ← hL, final]

/-- A local realisation of a running station fits its loads to the applied grants (R164 to R166). -/
theorem realise_fitted (s : State) (hs : ShapeOk s) (hr : s.start.running = true) :
    Fitted (realise s).alloc.applied (loadList (realise s)) := by
  rw [realise_loads s hs hr, show (realise s).alloc = s.alloc from (realised s).2.2.2]
  exact (fitLoads_fitted _ _).1

/-! ## The end of an event -/

/-- A load without its present setting. -/
def Load.still (l : Load) : Load := { l with present := 0 }

theorem grantedDraw_congr (t : Tier) {a b : List Load} (h : b.map Load.still = a.map Load.still) :
    grantedDraw t b = grantedDraw t a := by
  induction a generalizing b with
  | nil => rw [List.map_eq_nil_iff.mp (h : b.map Load.still = [])]
  | cons x xs ih =>
    cases b with
    | nil => simp at h
    | cons y ys =>
      simp only [List.map_cons, List.cons.injEq] at h
      have e1 : y.fitting = x.fitting := congrArg (fun l => l.fitting) h.1
      have e2 : y.rated = x.rated := congrArg (fun l => l.rated) h.1
      have e3 : y.demand = x.demand := congrArg (fun l => l.demand) h.1
      have e4 : y.granted = x.granted := congrArg (fun l => l.granted) h.1
      rw [grantedDraw_cons, grantedDraw_cons, ih h.2, inTier, inTier, e1, e2, e3, e4]

/-- Whether a load list is fitted does not rest on the present settings. -/
theorem Fitted.congr {g : Grants} {a b : List Load} (hf : Fitted g a) (h : b.map Load.still = a.map Load.still) :
    Fitted g b := by
  intro k l hl
  have hl' : (b.map Load.still)[k]? = some l.still := by rw [List.getElem?_map, hl]; rfl
  rw [h, List.getElem?_map, Option.map_eq_some_iff] at hl'
  obtain ⟨x, hx, hs⟩ := hl'
  have e1 : x.fitting = l.fitting := congrArg (fun l => l.fitting) hs
  have e2 : x.rated = l.rated := congrArg (fun l => l.rated) hs
  have e3 : x.demand = l.demand := congrArg (fun l => l.demand) hs
  have e4 : x.granted = l.granted := congrArg (fun l => l.granted) hs
  have d (t : Tier) : grantedDraw t b = grantedDraw t a := grantedDraw_congr t h
  have dk (t : Tier) : grantedDraw t (b.take k) = grantedDraw t (a.take k) :=
    grantedDraw_congr t (by rw [List.map_take, List.map_take, h])
  have := hf k x hx
  simp only [tierBudget, LoadFitted, e1, e2, e3, e4, ← d, ← dk] at this
  simp only [tierBudget, LoadFitted]
  exact this

/-- A stage that is switched and forms its demand afresh keeps its grant where it keeps its record. -/
theorem switched_still (now : Nat) (c : StageConfig) (row : StageCall) (st : Stage)
    (h : stageRecord (formStage now c row (switchStage now c st)) = stageRecord st)
    (hg : stageRecord st = none → st.granted = false) :
    (stageLoad c (formStage now c row (switchStage now c st))).still = (stageLoad c st).still := by
  have hgr : (formStage now c row (switchStage now c st)).granted = st.granted := by
    have hs : (switchStage now c st).granted = st.granted := by unfold switchStage; (repeat' split) <;> rfl
    unfold formStage at h ⊢
    cases row with
    | called t => exact hs
    | released i =>
      dsimp only at h ⊢
      split at h
      · rw [if_pos (by assumption)]
        exact (hg (h.symm.trans rfl)).symm
      · rw [if_neg (by assumption)]
        split at h
        · rw [if_pos (by assumption)]
          exact (hg (h.symm.trans rfl)).symm
        · rw [if_neg (by assumption)]
          exact hs
  simp only [Load.still, stageLoad, hgr]
  unfold stageRecord at h
  rw [h]

/-- After the owners have acted on fitted grants the loads are fitted, where no record was withdrawn. -/
theorem driveOwners_fitted (g : Grants) (a : State) (hf : Fitted g (loadList a))
    (he : demandRecords (driveOwners a) = demandRecords a) : Fitted g (loadList (driveOwners a)) := by
  refine hf.congr ?_
  have hst : (driveOwners a).heat.stages = formStages a.clock (isWorking a) (holdRules (rulingEffect a.overrides.heat)) a.heat 0
      a.cfg.heat.stages (switchStages a.clock a.cfg.heat.stages a.heat.stages) := by
    rw [driveOwners_stages, formStages_stages]
  have hr := stageRecords_of_demandRecords (driveOwners_view a) he
  have hcfg : (driveOwners a).cfg = a.cfg := congrArg Start.config (driveOwners_start a)
  rw [hst] at hr
  have hno : ∀ (k : Nat) (c : StageConfig) (st : Stage), a.cfg.heat.stages[k]? = some c → a.heat.stages[k]? = some st →
      stageRecord st = none → st.granted = false := by
    intro k c st hc hs hn
    have hmem : (loadList a)[(loadList a).length - (List.zipWith stageLoad a.cfg.heat.stages a.heat.stages).length + k]? =
        some (stageLoad c st) := by
      have hz : (List.zipWith stageLoad a.cfg.heat.stages a.heat.stages)[k]? = some (stageLoad c st) := by
        rw [List.getElem?_zipWith, hc, hs]
      unfold loadList
      rw [List.length_append, Nat.add_sub_cancel, List.getElem?_append_right (by omega), Nat.add_sub_cancel_left, hz]
    have := hf _ _ hmem
    have hd : (stageLoad c st).demand = none := hn
    rw [hd] at this
    have h0 : st.granted.toNat = 0 := this
    cases h : st.granted with
    | false => rfl
    | true => simp [h] at h0
  have stages : ∀ (k : Nat) (cs : List StageConfig) (sts : List Stage),
      (∀ (j : Nat) (c : StageConfig) (st : Stage), cs[j]? = some c → sts[j]? = some st → stageRecord st = none →
        st.granted = false) →
      stageRecords cs (formStages a.clock (isWorking a) (holdRules (rulingEffect a.overrides.heat)) a.heat k cs
        (switchStages a.clock cs sts)) = stageRecords cs sts →
      (List.zipWith stageLoad cs (formStages a.clock (isWorking a) (holdRules (rulingEffect a.overrides.heat)) a.heat k cs
        (switchStages a.clock cs sts))).map Load.still = (List.zipWith stageLoad cs sts).map Load.still := by
    intro k cs
    induction cs generalizing k with
    | nil => intro sts _ _; cases sts <;> rfl
    | cons c cs ih =>
      intro sts hg hrec
      cases sts with
      | nil => rfl
      | cons st sts =>
        simp only [switchStages, formStages, stageRecords, List.zipWith_cons_cons, List.map_cons, List.cons.injEq,
          switchStage_call] at hrec ⊢
        exact ⟨switched_still _ _ _ _ hrec.1 fun h => hg 0 c st rfl rfl h,
          ih (k + 1) sts (fun j => hg (j + 1)) hrec.2⟩
  have hS := stages 0 _ _ hno hr
  unfold loadList
  simp only [List.map_append]
  refine congr (congrArg _ (congr (congrArg _ (congr (congrArg _ (congr (congrArg _ ?_) ?_)) ?_)) ?_)) ?_
  · rw [hcfg]
    simp only [driveOwners, settleStages, driveStages, driveFans, driveCurtains, driveLights, State.setHeat_lighting,
      State.setAir_lighting, State.setDoors_lighting, State.setLighting_lighting]
    rw [List.zipWith_map_right, List.map_zipWith, List.map_zipWith]
    refine congrArg (fun f => List.zipWith f _ _) ?_
    funext c ch
    unfold trackChannel
    dsimp only
    split <;> rfl
  · rw [hcfg]
    simp only [driveOwners, settleStages, driveStages, driveFans, driveCurtains, driveLights, State.setHeat_lighting,
      State.setAir_lighting, State.setDoors_lighting, State.setLighting_lighting]
    rw [List.zipWith_map_right, List.map_zipWith, List.map_zipWith]
    rfl
  · rw [hcfg]
    simp only [driveOwners, settleStages, driveStages, driveFans, driveCurtains, driveLights, State.setHeat_air,
      State.setAir_air, State.setDoors_air, State.setLighting_air, List.map_cons, List.map_nil]
    have fan (now : Nat) (k : FanConfig) (f : Fan) : (fanLoad k (driveFan now k f)).still = (fanLoad k f).still := by
      unfold driveFan startFan coastFan beginRise
      cases f.state <;> dsimp only <;> (repeat' split) <;> rfl
    exact congrArg₂ (fun x y => [x, y]) (fan _ _ _) (fan _ _ _)
  · rw [hcfg]
    simp only [driveOwners, settleStages, driveStages, driveFans, driveCurtains, driveLights, State.setHeat_doors,
      State.setAir_doors, State.setDoors_doors, State.setLighting_doors]
    rw [List.zipWith_map_right, List.map_zipWith, List.map_zipWith]
    rfl
  · rw [hcfg, hst]
    exact hS

/-- The shape rests on the configuration and the number of records alone. -/
theorem ShapeOk.of_counts {s t : State} (h : ShapeOk s) (start : t.start = s.start) (view : t.view = s.view)
    (zones : t.traffic.zones = s.traffic.zones) (channels : t.lighting.channels.length = s.lighting.channels.length)
    (docks : t.lighting.docks.length = s.lighting.docks.length)
    (doors : t.doors.records.map Door.bare = s.doors.records.map Door.bare)
    (stages : t.heat.stages.length = s.heat.stages.length) : ShapeOk t := by
  have hc : t.cfg = s.cfg := congrArg Start.config start
  have hd : t.doors.records.length = s.doors.records.length := by simpa using congrArg List.length doors
  constructor
  · rw [view]; exact h.entries
  · rw [zones]; exact h.zones
  · rw [channels]; exact h.channels
  · rw [hc]; exact h.pages
  · rw [hc]; exact h.channelConfigs
  · rw [hc]; exact h.doorConfigs
  · rw [hc, start, docks]; exact h.docks
  · rw [hc, start, hd]; exact h.doors
  · rw [hc, start, stages]; exact h.stages

theorem ShapeOk.kept {s t : State} (h : ShapeOk s) (f : LoadsFrame s t) : ShapeOk t :=
  h.of_counts f.start f.view (congrArg Traffic.zones f.traffic) f.channels f.docks f.doors f.stages

theorem ShapeOk.published {s t : State} (h : ShapeOk s) (f : PublishFrame s t) : ShapeOk t :=
  h.of_counts f.start f.view (by rw [f.traffic]) f.channels f.docks f.doors f.stages

/-- What the allocator does at the end of an event leaves the loads fitted to the applied grants, where it was asked for
something or they were so before (R164 to R167). -/
theorem settleLoads_fitted (rounds : Nat) (work : Work) (p : State) (hs : ShapeOk p) (hr : p.start.running = true)
    (hf : StagesFormed p) (hh : holdings p < rounds) (hw : work = .none → Fitted p.alloc.applied (loadList p)) :
    Fitted (settleLoads rounds work p).alloc.applied (loadList (settleLoads rounds work p)) := by
  induction rounds generalizing work p with
  | zero => omega
  | succ n ih =>
    have fitted : Fitted (allocate work p).alloc.applied (loadList (allocate work p)) := by
      cases work with
      | none => exact hw rfl
      | realise => exact realise_fitted p hs hr
      | recompute => exact realise_fitted (recompute p) (hs.kept (recompute_frame p)) (by rw [recompute_start]; exact hr)
    obtain ⟨-, h2, h3, -⟩ := allocated work p
    have h6 := (driveOwners_rest (allocate work p) (h2 hf)).2
    unfold settleLoads
    dsimp only
    split
    · rename_i he
      rw [driveOwners_alloc]
      exact driveOwners_fitted _ _ fitted he
    · rename_i he
      have hfr := (allocate_frame work p).trans (driveOwners_frame _)
      refine ih .recompute _ (hs.kept hfr) (by rw [hfr.start]; exact hr) (settleStages_stagesFormed _) ?_ nofun
      have := (h6 he).1
      omega

/-- The end of an event on a running station leaves every load granted what the applied grants give it (R164 to R167), where
the allocator was asked for something or the published state had it so. -/
theorem finish_fitted (before : State) (work : Work) (s : State) (hs : ShapeOk s) (hr : s.start.running = true)
    (hw : workFor before work (publish before s) = .none →
      Fitted (publish before s).alloc.applied (loadList (publish before s))) : FittedOk (finish before work s) := by
  intro _
  have hp := publish_frame before s
  have h := settleLoads_fitted ((publish before s).heat.stages.length + 2) (workFor before work (publish before s))
    (publish before s) (hs.published hp) (by rw [hp.start]; exact hr) (settleStages_stagesFormed _)
    (by have := holdings_le (publish before s); omega) hw
  unfold finish
  dsimp only
  rw [(measured_rest _ _).2.2.2.2, measured_asked]
  exact h

end Sys2Proof.Machine
end

