-- ==== Sys2Proof/Laws/Flags.lean ====
section
/-! SUPPORT. The conditions of a summary by their numbers (Table 37, R181). -/

namespace Sys2Proof.Machine

/-- Bit `i` of a summary packed from a list: the flag that stands `i` places before the list's end. -/
theorem testBit_packed (l : List Bool) (i : Nat) :
    (l.foldl (fun (n : Nat) (b : Bool) => 2 * n + b.toNat) 0).testBit i = l.reverse.getD i false := by
  induction l using List.reverseRecOn generalizing i with
  | nil => simp
  | append_singleton l b ih =>
    rw [List.foldl_append, List.foldl_cons, List.foldl_nil, List.reverse_append]
    cases i with
    | zero => cases b <;> simp [Nat.testBit_zero]
    | succ i => rw [Nat.testBit_succ]; cases b <;> simp [Nat.mul_add_div, ih]

/-- Condition `n` of a packed summary is the flag at place `n` (R181). -/
theorem conditionSet_packFlags (l : List Bool) (h : l.length = 16) (n : Nat) (hn : n < 16) :
    conditionSet (packFlags l) n = l.getD n false := by
  unfold conditionSet packFlags
  rw [BitVec.getLsbD_ofNat, testBit_packed, List.getD_reverse _ (by omega)]
  have : 15 - n < 16 := by omega
  simp [this, h]
  congr 2
  omega

/-- A condition whose cause has ended is inactive, and no other flag changes (R149). -/
theorem endCondition_active {m : Nat} (hm : m < 16) (a : Alarms) {n : Nat} (hn : n < 16) :
    conditionSet (endCondition m a).active n = (decide (n ≠ m) && conditionSet a.active n) := by
  unfold conditionSet endCondition
  interval_cases m <;> interval_cases n <;> simp

/-- The latched flags of a condition that ends stay (R149). -/
@[simp] theorem endCondition_latched (m : Nat) (a : Alarms) : (endCondition m a).latched = a.latched := rfl

end Sys2Proof.Machine
end

