-- ==== Sys2Proof/Laws/Frames.lean ====
section
/-! SUPPORT. What the operations that commands share leave as it was: the shift tracker's, the link state's, the transmit
queue's and the accepted frame's. -/

namespace Sys2Proof.Machine

/-! ## Offering a bulletin -/

/-- A bulletin offered touches only the transmit queue (R17 to R20). -/
theorem offer_queue (b : Bulletin) (s : State) :
    offer b s = { s with line := { s.line with queue := (offer b s).line.queue } } := by
  unfold offer
  split
  · rfl
  · cases b <;> simp only [insertBulletin, offerAlarm] <;> (repeat' split) <;> rfl

section Offer

variable (b : Bulletin) (s : State)

@[simp] theorem offer_pending : (offer b s).pending = s.pending := by rw [offer_queue]
@[simp] theorem offer_clock : (offer b s).clock = s.clock := by rw [offer_queue]
@[simp] theorem offer_start : (offer b s).start = s.start := by rw [offer_queue]
@[simp] theorem offer_view : (offer b s).view = s.view := by rw [offer_queue]
@[simp] theorem offer_shift : (offer b s).shift = s.shift := by rw [offer_queue]
@[simp] theorem offer_traffic : (offer b s).traffic = s.traffic := by rw [offer_queue]
@[simp] theorem offer_lighting : (offer b s).lighting = s.lighting := by rw [offer_queue]
@[simp] theorem offer_doors : (offer b s).doors = s.doors := by rw [offer_queue]
@[simp] theorem offer_heat : (offer b s).heat = s.heat := by rw [offer_queue]
@[simp] theorem offer_air : (offer b s).air = s.air := by rw [offer_queue]
@[simp] theorem offer_overrides : (offer b s).overrides = s.overrides := by rw [offer_queue]
@[simp] theorem offer_alarms : (offer b s).alarms = s.alarms := by rw [offer_queue]
@[simp] theorem offer_alloc : (offer b s).alloc = s.alloc := by rw [offer_queue]
@[simp] theorem offer_engine : (offer b s).line.engine = s.line.engine := by rw [offer_queue]
@[simp] theorem offer_failures : (offer b s).line.failures = s.line.failures := by rw [offer_queue]
@[simp] theorem offer_lastAlarm : (offer b s).line.lastAlarm = s.line.lastAlarm := by rw [offer_queue]
@[simp] theorem offer_lineFault : (offer b s).line.lineFault = s.line.lineFault := by rw [offer_queue]

end Offer

/-! ## The lighting and the heat unit within an event -/

/-- A report within an event touches only the channels of the lighting unit (R42, R82). -/
theorem reformChannels_eq (s : State) : reformChannels s = { s with lighting := { s.lighting with
    channels := (reformChannels s).lighting.channels } } := rfl

@[simp] theorem reformChannels_count (s : State) :
    (reformChannels s).lighting.channels.length = s.lighting.channels.length := by
  simp [reformChannels, settleChannels]

/-- What a report within an event makes of a channel: its row of the table, and the target followed (R82, R84 to R86). -/
theorem reformChannels_getElem? (s : State) (i : Nat) (c : ChannelConfig) (hc : s.cfg.lighting.channels[i]? = some c) :
    (reformChannels s).lighting.channels[i]? = (s.lighting.channels[i]?).map fun ch => trackChannel s.clock
      (chooseChannel (channelChoice c.mode (currentPage s) s.lighting.bay s.overrides.light i) ch) := by
  have h := chooseChannels_getElem? (currentPage s) s.lighting.bay s.overrides.light 0 i s.cfg.lighting.channels
    s.lighting.channels c hc
  rw [Nat.zero_add] at h
  simp [reformChannels, settleChannels, List.getElem?_map, h, Function.comp_def]

/-- Forming the setpoint, the calls and the demands within an event touches only the setpoint record and the stages
(R111). -/
theorem reformHeat_eq (s : State) : reformHeat s = { s with heat := { s.heat with
    setpoint := (reformHeat s).heat.setpoint, source := (reformHeat s).heat.source
    effective := (reformHeat s).heat.effective, stages := (reformHeat s).heat.stages } } := rfl

@[simp] theorem reformHeat_stageCount (s : State) : (reformHeat s).heat.stages.length = s.heat.stages.length := by
  simp [reformHeat, reformStages, settleSetpoint, judgeCalls, formSetpoint]

/-- Staging and switching within a reading touch only the stages (R106). -/
theorem stageReading_eq (s : State) : stageReading s = { s with heat := { s.heat with
    stages := (stageReading s).heat.stages } } := rfl

@[simp] theorem stageReading_stageCount (s : State) : (stageReading s).heat.stages.length = s.heat.stages.length := by
  simp [stageReading, reformStages, driveStages, judgeCalls]

/-! ## The shift tracker -/

/-- `t` follows `s` by the shift tracker's rules: the shift state, the bay lighting state, the channels, the setpoint record,
the stages, the override stacks and the doors' accumulators may differ. -/
structure ShiftFrame (s t : State) : Prop where
  pending : t.pending = s.pending
  clock : t.clock = s.clock
  start : t.start = s.start
  line : t.line = s.line
  view : t.view = s.view
  traffic : t.traffic = s.traffic
  lighting : t.lighting = { s.lighting with
    bay := t.lighting.bay, leadInDue := t.lighting.leadInDue, vacatingDue := t.lighting.vacatingDue
    channels := t.lighting.channels }
  channelCount : t.lighting.channels.length = s.lighting.channels.length
  doors : t.doors = { s.doors with records := t.doors.records }
  heat : t.heat = { s.heat with
    setpoint := t.heat.setpoint, source := t.heat.source, effective := t.heat.effective, stages := t.heat.stages }
  stageCount : t.heat.stages.length = s.heat.stages.length
  air : t.air = s.air
  vent : t.overrides.vent = s.overrides.vent
  alarms : t.alarms = s.alarms
  alloc : t.alloc = s.alloc

theorem ShiftFrame.refl (s : State) : ShiftFrame s s := by constructor <;> rfl

theorem ShiftFrame.trans {a b c : State} (h : ShiftFrame a b) (k : ShiftFrame b c) : ShiftFrame a c where
  pending := k.pending.trans h.pending
  clock := k.clock.trans h.clock
  start := k.start.trans h.start
  line := k.line.trans h.line
  view := k.view.trans h.view
  traffic := k.traffic.trans h.traffic
  lighting := by rw [k.lighting, h.lighting]
  channelCount := k.channelCount.trans h.channelCount
  doors := by rw [k.doors, h.doors]
  heat := by rw [k.heat, h.heat]
  stageCount := k.stageCount.trans h.stageCount
  air := k.air.trans h.air
  vent := k.vent.trans h.vent
  alarms := k.alarms.trans h.alarms
  alloc := k.alloc.trans h.alloc

theorem shiftFrame_setShift (s : State) (b : Shift) : ShiftFrame s (s.setShift b) := by constructor <;> rfl

theorem shiftFrame_reformHeat (s : State) : ShiftFrame s (reformHeat s) := by
  constructor <;> first | rfl | exact reformHeat_stageCount s

theorem shiftFrame_reformChannels (s : State) : ShiftFrame s (reformChannels s) := by
  constructor <;> first | rfl | exact reformChannels_count s

theorem changePage_frame (p : Fin 4) (s : State) : ShiftFrame s (changePage p s) := by
  unfold changePage
  split
  · exact .refl s
  · refine .trans ?_ ((shiftFrame_reformChannels _).trans (shiftFrame_reformHeat _))
    dsimp only
    split
    · exact shiftFrame_setShift _ _
    · unfold pageBecameIdle
      split <;> constructor <;> rfl

theorem startChangeover_frame (s : State) : ShiftFrame s (startChangeover s) := by
  unfold startChangeover
  dsimp only
  split <;> constructor <;> rfl

theorem offerChangeover_frame (expiry : Nat) (s : State) : ShiftFrame s (offerChangeover expiry s) := by
  constructor <;> rfl

theorem rollAccumulators_frame (s : State) : ShiftFrame s (rollAccumulators s) := by constructor <;> rfl

theorem adopt_frame (e : Byte) (p : Fin 4) (s : State) : ShiftFrame s (adopt e p s) := by
  unfold adopt
  dsimp only
  exact (rollAccumulators_frame s).trans ((shiftFrame_setShift _ _).trans ((changePage_frame _ _).trans
    ((startChangeover_frame _).trans (shiftFrame_setShift _ _))))

theorem settleLowerPage_frame (p : Fin 4) (s : State) : ShiftFrame s (settleLowerPage p s) := by
  unfold settleLowerPage
  dsimp only
  split
  · exact (changePage_frame p s).trans (offerChangeover_frame _ _)
  · exact changePage_frame p s

theorem adoptionTest_frame (e : Byte) (p : Fin 4) (s : State) : ShiftFrame s (adoptionTest e p s) := by
  unfold adoptionTest
  split
  · exact adopt_frame e p s
  · split
    · exact adopt_frame e p s
    · split
      · exact settleLowerPage_frame p s
      · exact .refl s

/-- The shift state after a change of page: only the page differs (R42). -/
theorem changePage_shift (p : Fin 4) (s : State) : (changePage p s).shift = { s.shift with page := p } := by
  unfold changePage
  split
  · rename_i h
    rw [h]
  · rw [reformHeat_eq, reformChannels_eq]
    dsimp only
    split <;> rfl

/-- The shift state after the start of a changeover (R52). -/
theorem startChangeover_shift (s : State) : (startChangeover s).shift = { s.shift with
    phase := if (currentPage s).changeover = 0 then .steady else .changeover
    changeoverDue := if (currentPage s).changeover = 0 then none else some (s.clock + (currentPage s).changeover * 1000) } := by
  unfold startChangeover
  dsimp only
  split <;> rfl

/-! ## The accepted frame -/

/-- `t` follows `s` by an accepted frame's effect on the line engine and the link state. -/
structure HeardFrame (s t : State) : Prop where
  pending : t.pending = s.pending
  clock : t.clock = s.clock
  start : t.start = s.start
  queue : t.line = { s.line with engine := .hunt, idle := t.line.idle, assembler := Assembler.start }
  view : t.view = { s.view with
    link := t.view.link, listenDue := t.view.listenDue, heard := t.view.heard, isolationDue := t.view.isolationDue }
  shift : t.shift = s.shift
  traffic : t.traffic = s.traffic
  lighting : t.lighting = s.lighting
  doors : t.doors = s.doors
  heat : t.heat = s.heat
  air : t.air = s.air
  overrides : t.overrides = s.overrides
  alloc : t.alloc = s.alloc

@[simp] theorem isPeer_frameEnds (sender : Station) (kind : Nat) (from_ : Station) (payload : List Byte) (s : State) :
    isPeer sender (frameEnds kind from_ payload s) = isPeer sender s := rfl

theorem isPeer_iff (sender : Station) (s : State) : isPeer sender s = true ↔
    sender.toNat < 32 ∧ sender.toNat < s.start.config.header.nCfg ∧ sender.toNat ≠ s.start.strapped := by
  simp [isPeer]

/-- A frame that is no valid peer frame touches only the line engine (R27). -/
theorem heard_of_not_peer {kind : Nat} {sender : Station} {payload : List Byte} {s : State} (h : isPeer sender s = false) :
    heard kind sender payload s = frameEnds kind sender payload s := by
  simp [heard, peerFrame, h]

theorem heard_frame (kind : Nat) (sender : Station) (payload : List Byte) (s : State) :
    HeardFrame s (heard kind sender payload s) := by
  unfold heard peerFrame frameEnds
  generalize idleAfter 0 (lineBits kind sender payload ++ frameTail) = n
  split
  · dsimp only [State.setLine_view]
    split
    · constructor <;> rfl
    · constructor <;> rfl
    · split <;> constructor <;> rfl
    · constructor <;> rfl
  · constructor <;> rfl

/-- The three outcomes of a frame (R10, R12, R15). -/
theorem takeFrame_cases (kind : Nat) (sender : Station) (payload : List Byte) (deliver : State → State)
    (close : State → State → State) (s : State) :
    (mayAccept s = false ∧ takeFrame kind sender payload deliver close s = s) ∨
      (mayAccept s = true ∧ sender.toNat = s.own ∧ takeFrame kind sender payload deliver close s =
        finish s .none (addCause .duplicate (heard kind sender payload s))) ∨
      (mayAccept s = true ∧ sender.toNat ≠ s.own ∧ takeFrame kind sender payload deliver close s =
        close s (deliver (heard kind sender payload s))) := by
  unfold takeFrame
  cases h : mayAccept s
  · simp
  · by_cases ho : sender.toNat = s.own <;> simp [ho]

/-- The end of an event that may have changed the link state: nothing, or the common end. -/
theorem finishLink_cases (before s : State) : finishLink before s = s ∨ finishLink before s = finish before .none s := by
  unfold finishLink
  split
  · exact .inl rfl
  · exact .inr rfl

end Sys2Proof.Machine
end

