-- ==== Sys2Proof/Laws/PerInstr.lean ====
section
/-! SUPPORT. For every command: a well-formed command that brings a frame brings one whose payload length Table 6
accepts, so the receiver's header check lets it pass (R9). One lemma per constructor of `Instr`. -/

namespace Sys2Proof.Laws.Fits

open Sys2Proof.Machine

/-- A frame that the command brings has a payload length Table 6 accepts for its kind (R9). -/
def Statement (i : Instr) : Prop :=
  ∀ kind sender payload, i.frame = some (kind, sender, payload) → i.wellFormed = true →
    lengthAccepted kind payload.length = true

/-- A command that brings no frame. -/
theorem of_frameless (i : Instr) (h : i.frame = none) : Statement i := by
  intro kind sender payload hf
  rw [h] at hf
  exact absurd hf (by simp)

/-- A command that brings a frame of a kind with one accepted length. -/
theorem of_length (i : Instr) (kind : Nat) (sender : Station) (payload : List Byte)
    (h : i.frame = some (kind, sender, payload)) (hl : lengthAccepted kind payload.length = true) : Statement i := by
  intro k st p hf _
  rw [h] at hf
  obtain ⟨rfl, rfl, rfl⟩ := by simpa using hf
  exact hl

theorem powerOnReset : Statement .powerOnReset := of_frameless _ rfl
theorem startSequenceEnd (reading : StartReading) : Statement (.startSequenceEnd reading) := of_frameless _ rfl
theorem lineIdle (bits : List Bool) : Statement (.lineIdle bits) := of_frameless _ rfl
theorem transmitAttemptStart : Statement .transmitAttemptStart := of_frameless _ rfl
theorem lostArbitration (lineBit : Nat) : Statement (.lostArbitration lineBit) := of_frameless _ rfl
theorem bitError (lineBit : Nat) : Statement (.bitError lineBit) := of_frameless _ rfl
theorem abortEnd : Statement .abortEnd := of_frameless _ rfl
theorem transmissionComplete : Statement .transmissionComplete := of_frameless _ rfl
theorem frameDiscarded (bits : List Bool) : Statement (.frameDiscarded bits) := of_frameless _ rfl
theorem beaconReceived (sender : Station) (payload : Vector Byte 24) : Statement (.beaconReceived sender payload) :=
  of_length _ kindBeacon sender payload.toList rfl (by simp [lengthAccepted, kindBeacon])
theorem handoffReceived (sender : Station) (payload : Vector Byte 4) : Statement (.handoffReceived sender payload) :=
  of_length _ kindHandoff sender payload.toList rfl (by simp [lengthAccepted, kindHandoff])
theorem shiftReceived (sender : Station) (payload : Vector Byte 2) : Statement (.shiftReceived sender payload) :=
  of_length _ kindShift sender payload.toList rfl (by simp [lengthAccepted, kindShift])
theorem alarmReceived (sender : Station) (payload : Vector Byte 4) : Statement (.alarmReceived sender payload) :=
  of_length _ kindAlarm sender payload.toList rfl (by simp [lengthAccepted, kindAlarm])
theorem replyReceived (sender : Station) (payload : List Byte) : Statement (.replyReceived sender payload) := by
  intro k st p hf hw
  obtain ⟨rfl, rfl, rfl⟩ := by simpa [Instr.frame] using hf
  exact hw
theorem lightSet (sender : Station) (payload : Vector Byte 9) : Statement (.lightSet sender payload) :=
  of_length _ kindDirective sender payload.toList rfl (by simp [lengthAccepted, kindDirective])
theorem heatHold (sender : Station) (payload : Vector Byte 9) : Statement (.heatHold sender payload) :=
  of_length _ kindDirective sender payload.toList rfl (by simp [lengthAccepted, kindDirective])
theorem heatSetpoint (sender : Station) (payload : Vector Byte 9) : Statement (.heatSetpoint sender payload) :=
  of_length _ kindDirective sender payload.toList rfl (by simp [lengthAccepted, kindDirective])
theorem heatBoost (sender : Station) (payload : Vector Byte 9) : Statement (.heatBoost sender payload) :=
  of_length _ kindDirective sender payload.toList rfl (by simp [lengthAccepted, kindDirective])
theorem ventPurge (sender : Station) (payload : Vector Byte 9) : Statement (.ventPurge sender payload) :=
  of_length _ kindDirective sender payload.toList rfl (by simp [lengthAccepted, kindDirective])
theorem ventStop (sender : Station) (payload : Vector Byte 9) : Statement (.ventStop sender payload) :=
  of_length _ kindDirective sender payload.toList rfl (by simp [lengthAccepted, kindDirective])
theorem release (sender : Station) (payload : Vector Byte 9) : Statement (.release sender payload) :=
  of_length _ kindDirective sender payload.toList rfl (by simp [lengthAccepted, kindDirective])
theorem alarmAck (sender : Station) (payload : Vector Byte 9) : Statement (.alarmAck sender payload) :=
  of_length _ kindDirective sender payload.toList rfl (by simp [lengthAccepted, kindDirective])
theorem restart (sender : Station) (payload : Vector Byte 9) : Statement (.restart sender payload) :=
  of_length _ kindDirective sender payload.toList rfl (by simp [lengthAccepted, kindDirective])
theorem queryStatus (sender : Station) (payload : Vector Byte 3) : Statement (.queryStatus sender payload) :=
  of_length _ kindQuery sender payload.toList rfl (by simp [lengthAccepted, kindQuery])
theorem queryPeer (sender : Station) (payload : Vector Byte 3) : Statement (.queryPeer sender payload) :=
  of_length _ kindQuery sender payload.toList rfl (by simp [lengthAccepted, kindQuery])
theorem queryShift (sender : Station) (payload : Vector Byte 3) : Statement (.queryShift sender payload) :=
  of_length _ kindQuery sender payload.toList rfl (by simp [lengthAccepted, kindQuery])
theorem queryDoor (sender : Station) (payload : Vector Byte 3) : Statement (.queryDoor sender payload) :=
  of_length _ kindQuery sender payload.toList rfl (by simp [lengthAccepted, kindQuery])
theorem queryOverrides (sender : Station) (payload : Vector Byte 3) : Statement (.queryOverrides sender payload) :=
  of_length _ kindQuery sender payload.toList rfl (by simp [lengthAccepted, kindQuery])
theorem queryLoads (sender : Station) (payload : Vector Byte 3) : Statement (.queryLoads sender payload) :=
  of_length _ kindQuery sender payload.toList rfl (by simp [lengthAccepted, kindQuery])
theorem beaconScheduling : Statement .beaconScheduling := of_frameless _ rfl
theorem entryStale (entry : Fin 32) : Statement (.entryStale entry) := of_frameless _ rfl
theorem entryLost (entry : Fin 32) : Statement (.entryLost entry) := of_frameless _ rfl
theorem listenTimerExpiry : Statement .listenTimerExpiry := of_frameless _ rfl
theorem isolationTimerExpiry : Statement .isolationTimerExpiry := of_frameless _ rfl
theorem timebaseLost : Statement .timebaseLost := of_frameless _ rfl
theorem timebaseRecovered : Statement .timebaseRecovered := of_frameless _ rfl
theorem shiftInputChange (pressed : Bool) (event : InputEvent) : Statement (.shiftInputChange pressed event) :=
  of_frameless _ rfl
theorem changeoverTimerExpiry : Statement .changeoverTimerExpiry := of_frameless _ rfl
theorem lockoutTimerExpiry : Statement .lockoutTimerExpiry := of_frameless _ rfl
theorem gateBeamChange (beam : Beam) : Statement (.gateBeamChange beam) := of_frameless _ rfl
theorem invalidTransition : Statement .invalidTransition := of_frameless _ rfl
theorem gateFaultClear : Statement .gateFaultClear := of_frameless _ rfl
theorem presenceAsserted (zone : Fin 4) : Statement (.presenceAsserted zone) := of_frameless _ rfl
theorem presenceReleased (zone : Fin 4) : Statement (.presenceReleased zone) := of_frameless _ rfl
theorem zoneHoldExpiry (zone : Fin 4) : Statement (.zoneHoldExpiry zone) := of_frameless _ rfl
theorem vacancyCorrection : Statement .vacancyCorrection := of_frameless _ rfl
theorem leadInTimerExpiry : Statement .leadInTimerExpiry := of_frameless _ rfl
theorem vacatingTimerExpiry : Statement .vacatingTimerExpiry := of_frameless _ rfl
theorem levelRiseStep (channel : Fin 4) : Statement (.levelRiseStep channel) := of_frameless _ rfl
theorem manualAsserted (event : InputEvent) : Statement (.manualAsserted event) := of_frameless _ rfl
theorem manualReleased (event : InputEvent) : Statement (.manualReleased event) := of_frameless _ rfl
theorem doorContactChange (door : Fin 8) (isOpen : Bool) (event : InputEvent) : Statement (.doorContactChange door isOpen event) :=
  of_frameless _ rfl
theorem doorTrailerChange (door : Fin 8) (present : Bool) (event : InputEvent) : Statement (.doorTrailerChange door present event) :=
  of_frameless _ rfl
theorem doorHoldExpiry (door : Fin 8) : Statement (.doorHoldExpiry door) := of_frameless _ rfl
theorem doorFaultClear (door : Fin 8) : Statement (.doorFaultClear door) := of_frameless _ rfl
theorem boostRecoveryExpiry : Statement .boostRecoveryExpiry := of_frameless _ rfl
theorem temperatureReading (value : Option Int) : Statement (.temperatureReading value) := of_frameless _ rfl
theorem stageMinOnExpiry (stage : Fin 4) : Statement (.stageMinOnExpiry stage) := of_frameless _ rfl
theorem stageMinOffExpiry (stage : Fin 4) : Statement (.stageMinOffExpiry stage) := of_frameless _ rfl
theorem gasSample (gas : Gas) (value : Option Nat) : Statement (.gasSample gas value) := of_frameless _ rfl
theorem coastTimerExpiry (fan : Fin 2) : Statement (.coastTimerExpiry fan) := of_frameless _ rfl
theorem rampTimerExpiry (fan : Fin 2) : Statement (.rampTimerExpiry fan) := of_frameless _ rfl
theorem overrideExpiry (stack : StackId) (source : SourceKind) (origin : Option Station) : Statement (.overrideExpiry stack source origin) :=
  of_frameless _ rfl
theorem pendingIncreaseExpiry : Statement .pendingIncreaseExpiry := of_frameless _ rfl
theorem meterPulse : Statement .meterPulse := of_frameless _ rfl
theorem meterCheck : Statement .meterCheck := of_frameless _ rfl
theorem startDelimiter : Statement .startDelimiter := of_frameless _ rfl
theorem directiveDropped (sender : Station) (payload : Vector Byte 9) : Statement (.directiveDropped sender payload) :=
  of_length _ kindDirective sender payload.toList rfl (by simp [lengthAccepted, kindDirective])
theorem queryDropped (sender : Station) (payload : Vector Byte 3) : Statement (.queryDropped sender payload) :=
  of_length _ kindQuery sender payload.toList rfl (by simp [lengthAccepted, kindQuery])
theorem doorSettlingEnds (door : Fin 8) (isOpen : Bool) (present : Bool) : Statement (.doorSettlingEnds door isOpen present) :=
  of_frameless _ rfl
theorem openSecondsAdvance (door : Fin 8) : Statement (.openSecondsAdvance door) := of_frameless _ rfl

end Sys2Proof.Laws.Fits
end

