-- ==== Sys2Proof/Tests/Slice0.lean ====
section
/-! SUPPORT. The model's own tests. First the checks of `WellFormed`, each with a term it refuses; then the manual's worked
examples, whose expected results are the manual's own figures; then, for every statement that has hypotheses, a witness: a
state and operands that meet them, at the bounds where the hypotheses have any. -/

namespace Sys2Proof.Tests

open Sys2Proof Machine

-- One test after the other: tests that wait for the kernel side by side each hold a thread of their own.
set_option Elab.async false

/-! ## Helpers -/

/-- The next state of an answer; every command of this machine has one. -/
def after : Answer → State
  | .next t => t
  | .fault r => nomatch r
  | .refused _ => State.reset

/-- A station of eight with two doors, two stages and a gate. -/
def site : Config := { Config.builtIn with
  header := { nCfg := 8, group := 0x21, startPage := 0, interval := 1000, cap := 8000 }
  lighting := { Config.builtIn.lighting with channels := List.replicate 4 { rated := 30, mode := .follow } }
  doors := { holdLimit := 300, recovery := 120, curtains := [60, 60], docks := [5, 5] }
  heat := { Config.builtIn.heat with
    boostDelta := 20, stages := List.replicate 2 { rated := 300, minOn := 120, minOff := 180 } }
  air := { Config.builtIn.air with
    fan1 := { rated := 75, flow := 100, coast := 30, ramp := 500 }
    fan2 := { rated := 75, flow := 100, coast := 30, ramp := 500 }, deadband := 20, relief := 30 }
  gate := { present := true, spacing := 600, zoneHold := 30, vacancy := 300 } }

/-- An input that shows a level since `since`, with that level debounced. -/
def steady (level : Bool) (since : Nat) : Debounced := { level := some level, raw := level, since := since }

/-- An input whose raw level has been `raw` since `since`, with another debounced level or none. -/
def raised (level : Option Bool) (raw : Bool) (since : Nat) : Debounced := { level := level, raw := raw, since := since }

/-- A closed door with both debounced levels. -/
def shutDoor : Door := { freshDoor 0 false false none with settling := false, contact := steady false 0, trailer := steady false 0 }

/-- A running station 5 of that site, in LISTEN, its line idle, at 1000 s. -/
def live : State := { State.reset with
  clock := 1000000
  start := { running := true, strapped := 5, outcome := .good, cause := .powerOn, config := site, endedAt := 0 }
  line := { Line.initial with engine := .idle, idle := 12 }
  view := { View.initial with link := .listen, listenDue := some 1000000, nextBeacon := 1000000 }
  shift := { Shift.initial with input := steady false 0 }
  traffic := { Traffic.initial with gate := .ok, tracking := true }
  lighting := { Lighting.initial with docks := [DockLight.off, DockLight.off], manual := steady false 0 }
  doors := { Doors.initial with records := [shutDoor, shutDoor] }
  heat := { Heat.initial with stages := List.replicate 2 (freshStage 999000) } }

/-- The same station with the end of an event behind it. -/
def rest : State := finish live .recompute live

/-- The line engine changed. -/
def withLine (f : Line → Line) (s : State) : State := s.setLine (f s.line)

/-- The peer view changed. -/
def withView (f : View → View) (s : State) : State := s.setView (f s.view)

/-- The station receiving a frame. -/
def hearing : State := withLine (fun l => { l with engine := .receive }) live

/-- A waiting slot. -/
def slot (b : Bulletin) : Slot := { content := b, sending := none, renewed := none }

/-- A slot in flight with a payload. -/
def flying (b : Bulletin) (p : List Byte) : Slot := { content := b, sending := some p, renewed := none }

/-- A HANDOFF of the own gate. -/
def handoff : Bulletin := .handoff { direction := .up, speed := .fast, count := 41, transit := 200 }

/-- A directive payload: group, mode and kind, precedence, duration, parameters. -/
def directive (mode kind prec : Nat) (a b : Byte) : Vector Byte 9 :=
  #v[0x21, byteOf (16 * mode + kind), byteOf prec, 1, 44, a, b, 0, 0]

/-- An override entry of service tool `n`. -/
def tool (n : Station) (precedence : Nat) (effect : Effect) (expiry : Option Nat) : OverrideEntry :=
  { source := .directive, origin := some n, precedence := precedence, effect := effect, expiry := expiry }

/-! ## Well-formedness -/

theorem test_wellFormed_refuses_long_image : Instr.wellFormed (.startSequenceEnd
    { straps := 0, image := List.replicate 257 0, beamA := false, beamB := false, presence := Vector.replicate 4 false,
      manual := false, shift := false, contacts := Vector.replicate 8 false, trailers := Vector.replicate 8 false
      temperature := none, co := none, no2 := none }) = false := by decide +kernel

theorem test_wellFormed_refuses_empty_idle : Instr.wellFormed (.lineIdle []) = false := by decide

theorem test_wellFormed_refuses_bit_past_arbitration : Instr.wellFormed (.lostArbitration 12) = false := by decide

theorem test_wellFormed_refuses_empty_discard : Instr.wellFormed (.frameDiscarded []) = false := by decide

theorem test_wellFormed_refuses_short_reply :
    Instr.wellFormed (.replyReceived 40 [1, 2, 3]) = false ∧
    Instr.wellFormed (.replyReceived 40 (List.replicate 49 0)) = false := by decide +kernel

/-- Each directive row refuses the payload of its neighbour's kind. -/
theorem test_wellFormed_refuses_other_directive :
    Instr.wellFormed (.lightSet 40 (directive 2 1 3 0 0)) = false ∧ Instr.wellFormed (.heatHold 40 (directive 2 2 3 0 0)) = false ∧
    Instr.wellFormed (.heatSetpoint 40 (directive 2 3 3 0 0)) = false ∧ Instr.wellFormed (.heatBoost 40 (directive 2 4 3 0 0)) = false ∧
    Instr.wellFormed (.ventPurge 40 (directive 2 5 3 0 0)) = false ∧ Instr.wellFormed (.ventStop 40 (directive 2 6 3 0 0)) = false ∧
    Instr.wellFormed (.release 40 (directive 2 7 3 0 0)) = false ∧ Instr.wellFormed (.alarmAck 40 (directive 2 8 3 0 0)) = false ∧
    Instr.wellFormed (.restart 40 (directive 2 9 3 0 0)) = false := by decide +kernel

/-- Each query row refuses a neighbour's record kind, and takes a code that names none. -/
theorem test_wellFormed_refuses_other_query :
    Instr.wellFormed (.queryStatus 40 #v[5, 1, 0]) = false ∧ Instr.wellFormed (.queryPeer 40 #v[5, 2, 0]) = false ∧
    Instr.wellFormed (.queryShift 40 #v[5, 3, 0]) = false ∧ Instr.wellFormed (.queryDoor 40 #v[5, 4, 0]) = false ∧
    Instr.wellFormed (.queryOverrides 40 #v[5, 5, 0]) = false ∧ Instr.wellFormed (.queryLoads 40 #v[5, 0, 0]) = false ∧
    Instr.wellFormed (.queryStatus 40 #v[5, 6, 0]) = true := by decide +kernel

theorem test_wellFormed_refuses_foreign_identity :
    Instr.wellFormed (.overrideExpiry .heat .manual none) = false ∧
    Instr.wellFormed (.overrideExpiry .vent .changeover none) = false ∧
    Instr.wellFormed (.overrideExpiry .light .directive none) = false ∧
    Instr.wellFormed (.overrideExpiry .light .manual (some 3)) = false := by decide

/-! ## The manual's worked examples -/

/-- Figure 3: the line bits of two beacons after the start delimiter, up to the bit at which station 3 loses. -/
theorem test_arbitration_bits :
    (lineBits kindBeacon 1 (List.replicate 24 0)).take 11 =
      [false, true, false, false, false, false, false, true, false, false, true] ∧
    (lineBits kindBeacon 3 (List.replicate 24 0)).take 10 =
      [false, true, false, false, false, false, false, true, false, true] := by decide +kernel

/-- Figure 3: station 3 holds the nine header bits read so far. -/
theorem test_arbitration_lost : (receiveBits Assembler.start
    ((lineBits kindBeacon 3 (List.replicate 24 0)).take 9 ++ [false])).map (fun r => match r with
      | .more a => a.bits
      | _ => []) = some [false, true, false, false, false, false, false, false, false] := by decide +kernel

/-- Figure 6: the eight steps. -/
theorem test_gate_steps :
    gateStep false false true false = 1 ∧ gateStep true false true true = 1 ∧ gateStep true true false true = 1 ∧
    gateStep false true false false = 1 ∧ gateStep false false false true = -1 ∧ gateStep false true true true = -1 ∧
    gateStep true true true false = -1 ∧ gateStep true false false false = -1 := by decide

/-- One Forklift Through Four Bays: 200 ms over 600 mm is FAST, 500 ms NORMAL, and an unclean passage UNKNOWN. -/
theorem test_speed_class :
    speedClassOf 600 (some 200) = .fast ∧ speedClassOf 600 (some 500) = .normal ∧ speedClassOf 600 none = .unknown ∧
    speedClassOf 600 (some 240) = .normal ∧ speedClassOf 600 (some 1201) = .slow := by decide

/-- Lighting Ahead of a Forklift: a rise from 3 % at 20 %/s reaches 80 % at 3850 ms and not before; with a budget of 0 a
channel rated 30 is fitted at 3 %. -/
theorem test_fade :
    riseLevel 20 80 3 0 3850 = 80 ∧ riseLevel 20 80 3 0 3849 = 79 ∧ nameplate .dimmable 30 80 = 24 ∧
    fitLoad { fitting := .dimmable, rated := 30, demand := none, granted := 0, present := 0 } 80 0 = 3 := by decide +kernel

/-- The counted and reserved stations of Table 39. -/
def table39 : List Standing :=
  [.counted ⟨0, 166, 904, 0⟩, .counted ⟨0, 150, 600, 0⟩, .counted ⟨150, 0, 0, 0⟩, .counted ⟨0, 300, 1200, 0⟩,
    .counted ⟨0, 250, 300, 0⟩, .reserved 666]

theorem test_shed_table39 :
    ownGrants (shedComputation 4000 table39) ⟨0, 166, 904, 0⟩ = ⟨166, 709, 0⟩ ∧
    ownGrants (shedComputation 4000 table39) ⟨0, 250, 300, 0⟩ = ⟨250, 300, 0⟩ ∧
    (shedComputation 4000 table39).exceeded = false := by decide +kernel

/-- Table 41 at 3.300 s: station 5 is counted, and station 0 is granted its full 904, station 3 only 980. -/
theorem test_shed_table41 :
    let r := shedComputation 4000 (table39.take 5 ++ [.counted ⟨0, 200, 0, 0⟩])
    ownGrants r ⟨0, 166, 904, 0⟩ = ⟨166, 904, 0⟩ ∧ ownGrants r ⟨0, 300, 1200, 0⟩ = ⟨300, 980, 0⟩ := by decide +kernel

/-- Table 40: the granted settings, in the order of the load list. -/
theorem test_realisation_table40 :
    let load (f : Fitting) (rated setting : Nat) (t : Tier) : Load :=
      { fitting := f, rated := rated, demand := some ⟨setting, t⟩, granted := 0, present := 0 }
    (fitLoads ⟨166, 709, 0⟩ (List.replicate 4 (load .dimmable 30 80 1) ++ List.replicate 2 (load .whole 5 1 1) ++
      [load .stepped 75 40 2, load .whole 60 1 1] ++ List.replicate 3 (load .whole 300 1 2))).map Load.granted =
      [80, 80, 80, 80, 1, 1, 40, 1, 1, 1, 0] := by decide +kernel

/-- The air settings of Table 32. -/
def table32 : AirConfig := { Config.builtIn.air with
  fan2 := { rated := 75, flow := 100, coast := 30, ramp := 400 }, deadband := 20, relief := 30, stepLimit := 25 }

/-- The views of Table 32: stations 0, 3 and 4 with one flow of their own, stations 1 and 2 as they stand. -/
def views32 (a d e : Int) (u : Nat) : List BalanceView :=
  [⟨a, u, true⟩, ⟨-60, 0, false⟩, ⟨-150, 0, false⟩, ⟨d, 0, true⟩, ⟨e, 0, true⟩]

theorem test_balancing_table32 :
    balanceStep table32 (views32 0 20 0 1) 0 = 25 ∧ balanceStep table32 (views32 25 45 25 1) 25 = 50 ∧
    balanceStep table32 (views32 50 70 50 1) 50 = 50 ∧ balanceStep table32 (views32 50 70 50 0) 50 = 63 ∧
    balanceStep table32 (views32 60 80 60 0) 63 = 63 ∧ balancingSpeed 100 63 = 60 := by decide

/-- R108: with hysteresis 10 and critical low 50, FREEZE rises at 49 and falls at 60. -/
theorem test_freeze_limits :
    judgeFreeze site.heat 49 false = true ∧ judgeFreeze site.heat 50 false = false ∧
    judgeFreeze site.heat 59 true = true ∧ judgeFreeze site.heat 60 true = false := by decide

/-- Table 26: spacing 10 and hysteresis 5; stage 2 is called above 10 and released at 5. -/
theorem test_stage_calls_table26 :
    let c : HeatConfig := { site.heat with hysteresis := 5, spacing := 10 }
    judgeCall c 0 (-1) false = false ∧ judgeCall c 0 19 false = true ∧ judgeCall c 1 19 false = true ∧
    judgeCall c 1 4 true = false ∧ judgeCall c 0 4 true = true ∧ judgeCall c 1 3 false = false ∧
    judgeCall c 0 (-11) true = false := by decide

/-- An Unlisted Heater: pulses of 10 Wh every 1.8 s are 200, every 1.2 s 300; the tenth check in a row sets the term, and
ten without the excess clear the condition. -/
theorem test_meter :
    let m : MeterConfig := { weight := 10, creep := 60, margin := 50 }
    let a : Alloc := { Alloc.initial with energised := 200, measured := 300, excessRun := 9 }
    measuredPower m 1800 (some 1800) (some 0) = 200 ∧ measuredPower m 1200 (some 1200) (some 0) = 300 ∧
    (meterRuns 50 a).unaccounted = true ∧ (meterRuns 50 a).term = 100 ∧
    (meterRuns 50 { a with unaccounted := true, measured := 200, clearRun := 9 }).unaccounted = false := by decide

/-- The CHANGEOVER entry of A Crowded LIGHT Stack. -/
def co : OverrideEntry := { source := .changeover, origin := none, precedence := 0, effect := .level 50 0xF, expiry := some 600 }

/-- A Crowded LIGHT Stack: the offers from 0 s to 260 s. -/
def crowded : List OverrideEntry :=
  [co, tool 40 3 (.level 100 0x3) none, tool 41 2 (.level 0 0xF) (some 420), tool 42 1 (.level 20 0x8) none,
    tool 43 1 (.level 60 0x4) none, tool 44 1 (.level 30 0x1) none, manualEntry].foldl (fun l e => offerEntry e l) []

theorem test_crowded_stack :
    crowded.map OverrideEntry.origin = [some 40, some 41, some 43, none] ∧
    (List.range 4).map (fun i => (rulingFor i crowded).map OverrideEntry.precedence) = List.replicate 4 (some 7) ∧
    (List.range 4).map (fun i => (rulingFor i (crowded.take 2)).bind OverrideEntry.origin) =
      [some 40, some 40, some 41, some 41] := by decide +kernel

/-- Two Presses in the Same Instant: station 9 at (18, 3) takes page 2 by lower-page settling, its changeover still to 300 s;
station 4 ignores (18, 3). -/
theorem test_two_presses :
    let at9 : State := { live with shift := { live.shift with
      epoch := some 18, page := 3, phase := .changeover, changeoverDue := some 1300000, lockoutDue := some 1060000 } }
    let at4 : State := { live with shift := { live.shift with epoch := some 18, page := 2 } }
    (adoptionTest 18 2 at9).shift.page = 2 ∧ (adoptionTest 18 2 at9).shift.changeoverDue = some 1300000 ∧
    (adoptionTest 18 2 at9).shift.lockoutDue = some 1060000 ∧ adoptionTest 18 3 at4 = at4 := by decide +kernel

/-- Table 21: a door open for 2270 s adds that to 4410 open seconds. -/
theorem test_open_seconds_table21 :
    let d : Door := { shutDoor with state := .held, openMark := some 130500, openSeconds := 4410, cycles := 16 }
    (gatherOpen 2400500 d).openSeconds = 6680 ∧ (gatherOpen 2400500 d).remainder = 0 := by decide

/-- Two Questions in Quick Succession: on a station with fewer doors, door 5 is no record, and a LOADS index names a
curtain. -/
theorem test_replies :
    recordBody 3 5 live = none ∧ (recordBody 5 10 live).isSome = true ∧ (recordBody 0 0 live).isSome = true := by decide +kernel

/-- A Frost Night: the acknowledgement keeps the latched flag while the condition is active and clears it afterwards. -/
theorem test_frost_night :
    acknowledge { active := 0x2000, latched := 0x2000 } = { active := 0x2000, latched := 0x2000 } ∧
    updateAlarms 0xFFFF 0 { active := 0x2000, latched := 0x2000 } = { active := 0, latched := 0x2000 } ∧
    acknowledge { active := 0, latched := 0x2000 } = { active := 0, latched := 0 } ∧
    attentionAsserted 0xFFFF { active := 0, latched := 0x2000 } = true := by decide

/-- A Chattering Contact: the seventh change in 30 s puts the door into FAULT. -/
theorem test_chatter_fault :
    let d : Door := { shutDoor with chatter := [1, 2, 3, 4, 5, 6] }
    (contactChange 30000 300 true d).state = .fault ∧ (contactChange 30001 300 true d).state = .openUnsealed := by decide

/-! ## Witnesses: the machine and the line engine -/

theorem witness_step_front :
    ({ live with pending := [.meterPulse, .startDelimiter] } : State).pending = .meterPulse :: [.startDelimiter] := rfl

/-- On the empty queue of `live` the expired listen timer and the beacon schedule are among what the tick queues. -/
theorem witness_empty_queue : live.pending = [] ∧ 1 ≤ live.start.config.lighting.fade ∧
    (after (Machine.step live)).clock = 1000001 ∧
    .listenTimerExpiry ∈ (after (Machine.step live)).pending ∧ .beaconScheduling ∈ (after (Machine.step live)).pending ∧
    .meterCheck ∈ (after (Machine.step live)).pending ∧ .lockoutTimerExpiry ∉ (after (Machine.step live)).pending := by
  decide +kernel

/-- Timers of each block that end with the next millisecond, and beside each of them one that does not: an override entry, an
entry's age, a zone hold, a hold timer, a minimum time, a coast, the MANUAL input's stable time (R29, R69, R90, R96, R115, R129,
R139). -/
theorem test_due_at_the_tick :
    let door (since : Nat) : Door := { shutDoor with state := .openUnsealed, holdSince := some since, openMark := some 1000000 }
    let stage (since : Nat) : Stage :=
      { on := false, since := since, call := true, demand := .called, tier := some 2, granted := true }
    let s : State := { live with
      view := { live.view with
        listenDue := some 1000002, nextBeacon := 1000002
        entries := (live.view.entries.set 4 { PeerEntry.empty with
          state := .fresh, heardAt := 997001, beacon := some { ownBeacon live with interval := 1000 } }).set 3 { PeerEntry.empty with
          state := .stale, heardAt := 990002, beacon := some { ownBeacon live with interval := 1000 } } }
      traffic := { live.traffic with zones := [⟨false, some 970001⟩, ⟨false, some 970002⟩, ⟨true, none⟩, ⟨false, none⟩] }
      lighting := { live.lighting with manual := raised (some false) true 999951 }
      doors := { live.doors with records := [door 700001, door 700002] }
      heat := { live.heat with stages := [stage 820001, stage 820002] }
      air := { live.air with
        fan1 := { live.air.fan1 with coastDue := some 1000001 }, fan2 := { live.air.fan2 with coastDue := some 1000002 } }
      overrides := { live.overrides with heat := [tool 40 3 .hold (some 1000001), tool 41 3 .hold (some 1000002)] }
      alloc := { live.alloc with nextCheck := 1000002 } }
    (after (Machine.step s)).pending = [.overrideExpiry .heat .directive (some 40), .entryStale 4, .zoneHoldExpiry 0,
      .doorHoldExpiry 0, .stageMinOffExpiry 0, .coastTimerExpiry 0, .manualAsserted .stable] := by decide +kernel

/-- The station hunting for the idle line. -/
def hunting : State := withLine (fun l => { l with engine := .hunt, idle := 3 }) live

/-- Nine recessive levels on top of three end HUNT, eight do not, and a dominant one in between puts the count back; the sixth
equal bit in a row, the delimiter and five dominant ones, discards a frame. -/
theorem witness_receiver_moves :
    let count (n : Nat) (bits : List Bool) : Nat := bits.foldl (fun n b => if b then min 12 (n + 1) else 0) n
    (hunting.start.running = true ∧ hunting.line.engine = .hunt ∧
      (∀ k ∈ List.range 9, 1 ≤ k → count 3 ((List.replicate 9 true).take k) ≠ 12)) ∧
    (after (exec (.lineIdle (List.replicate 9 true)) hunting)).line.engine = .idle ∧
    (after (exec (.lineIdle (List.replicate 8 true)) hunting)).line.engine = .hunt ∧
    (after (exec (.lineIdle (List.replicate 8 true)) hunting)).line.idle = 11 ∧
    (after (exec (.lineIdle (List.replicate 8 true ++ [false, true])) hunting)).line.idle = 1 ∧ (live.start.running = true ∧ live.line.engine = .idle) ∧
    (hearing.start.running = true ∧ hearing.line.engine = .receive ∧
      receiveBits hearing.line.assembler (List.replicate 5 false) = some .discard) ∧
    (after (exec (.frameDiscarded (List.replicate 5 false)) hearing)).line.engine = .hunt := by decide +kernel

/-- A queue whose HANDOFF is chosen before the BEACON that came first. -/
def queued : State := withLine (fun l => { l with queue := [slot .beacon] ++ slot handoff :: [slot .beacon] }) live

theorem witness_attempt_start :
    queued.start.running = true ∧ queued.line.engine = .idle ∧ queued.view.link ≠ .silent ∧
    queued.line.queue = [slot .beacon] ++ slot handoff :: [slot .beacon] ∧
    (∀ y ∈ [slot .beacon], kindOf handoff < kindOf y.content) ∧ (∀ y ∈ [slot .beacon], kindOf handoff ≤ kindOf y.content) ∧
    (after (exec .transmitAttemptStart queued)).line.engine = .send := by decide +kernel

/-- A BEACON byte for byte (Tables 8 and 48): interval 10, JOINED 64 + epoch-known 32 + CHANGEOVER 16 + page 2, UNCERTAIN 128 +
balance-available 64 + gate OK 16 + ACTION 4 + OCCUPIED 2, −0.5 °C, a net flow of −300. -/
theorem test_own_beacon_bytes :
    let s : State := { live with
      view := { live.view with link := .joined, sequence := 7 }
      shift := { live.shift with epoch := some 200, page := 2, phase := .changeover }
      traffic := { live.traffic with count := 3, uncertain := true, gateCount := 41 }
      lighting := { live.lighting with bay := .occupied }
      doors := { live.doors with openUnsealed := 2 }
      heat := { live.heat with last := some (-5) }
      air := { live.air with available := true, gasClass := .action, netFlow := -300 }
      alarms := { active := 0x4002, latched := 0xFFFF }
      alloc := { live.alloc with reported := 1000, requests := ⟨258, 0, 65535, 1⟩ } }
    ownBeaconBytes s = [7, 10, 0x72, 200, 3, 0xD6, 41, 0xFF, 0xFB, 0xFE, 0xD4, 2, 0x03, 0xE8, 0x01, 0x02, 0, 0, 0xFF, 0xFF, 0, 1,
      0x40, 0x02] := by decide +kernel

/-- The other payloads byte for byte (Tables 46 and 49): a DOWN crossing of class SLOW in 1000 ms. -/
theorem test_bulletin_bytes :
    bulletinBytes (.alarm 0x8001 0x0002) = [0x80, 0x01, 0, 2] ∧
    bulletinBytes (.handoff { direction := .down, speed := .slow, count := 9, transit := 1000 }) = [0x12, 9, 0x03, 0xE8] ∧
    bulletinBytes (.shift 200 2) = [200, 2] ∧ bulletinBytes (.reply 45 3 1 false []) = [45, 3, 1, 1] ∧
    bulletinBytes (.reply 45 0 0 true [6, 7]) = [45, 0, 0, 0, 6, 7] := by decide +kernel

/-- Station 3 of Figure 3 with its BEACON in flight. -/
def sending3 : State := { withLine (fun l => { l with
    engine := .send, queue := [slot handoff] ++ flying .beacon (List.replicate 24 0) :: [] }) live with
  start := { live.start with strapped := 3 } }

/-- Line bit 9 is the fifth station bit, on which station 3 loses; the frame goes on (Figure 3). -/
theorem witness_lost_arbitration :
    let p : List Byte := List.replicate 24 0
    sending3.start.running = true ∧ sending3.line.engine = .send ∧
    sending3.line.queue = [slot handoff] ++ flying .beacon p :: [] ∧ (flying .beacon p).sending = some p ∧
    (∀ y ∈ [slot handoff] ++ [], y.sending = none) ∧ 9 < arbitrationSpan 4 3 p ∧ (lineBits 4 3 p)[9]? = some true ∧
    (after (exec (.lostArbitration 9) sending3)).line.engine = .receive := by decide +kernel

/-- The last bit of the field, and the stuff bit, on which the dominant level read is a stuffing violation. -/
theorem witness_lost_arbitration_bounds :
    let p : List Byte := List.replicate 24 0
    arbitrationSpan 4 3 p = 11 ∧ (lineBits 4 3 p)[10]? = some true ∧ (lineBits 4 3 p)[7]? = some true ∧
    (after (exec (.lostArbitration 10) sending3)).line.engine = .receive ∧
    (after (exec (.lostArbitration 7) sending3)).line.engine = .hunt := by decide +kernel

/-- The abort of a HANDOFF, after `n` aborts in a row. -/
def aborting (n : Nat) (link : LinkState) : State := withLine (fun l => { l with
    engine := .abort, failures := n, queue := [] ++ flying handoff [] :: [] }) (withView (fun v => { v with link := link }) live)

/-- Line bit 11, after the arbitration field, recessive; bit 0, dominant; and bit 9, which is a lost arbitration. -/
theorem witness_abort :
    (sending3.start.running = true ∧ sending3.line.engine = .send ∧
      sending3.line.queue = [slot handoff] ++ flying .beacon (List.replicate 24 0) :: [] ∧
      (lineBits 4 3 (List.replicate 24 0))[0]? = some false ∧
      (lineBits 4 3 (List.replicate 24 0))[12]? = some true ∧ arbitrationSpan 4 3 (List.replicate 24 0) ≤ 12) ∧
    (after (exec (.bitError 0) sending3)).line.engine = .abort ∧ (after (exec (.bitError 0) sending3)).line.idle = 1 ∧
    (after (exec (.bitError 12) sending3)).line.engine = .abort ∧ (after (exec (.bitError 12) sending3)).line.idle = 0 ∧
    (after (exec (.bitError 9) sending3)).line.engine = .send ∧
    ((aborting 14 .joined).start.running = true ∧ (aborting 14 .joined).line.engine = .abort ∧
      (aborting 14 .joined).view.timebaseLost = false ∧ (aborting 14 .joined).line.failures + 1 < 16 ∧
      (aborting 14 .joined).line.queue = [] ++ flying handoff [] :: [] ∧ (flying handoff []).inFlight = true ∧
      ∀ y ∈ ([] ++ [] : List Slot), y.sending = none) ∧
    (withView (fun v => { v with timebaseLost := true }) (aborting 0 .silent)).view.timebaseLost = true ∧
    (after (exec .abortEnd (aborting 14 .joined))).line.failures = 15 := by decide +kernel

theorem witness_sixteenth_abort :
    (aborting 15 .joined).start.running = true ∧ (aborting 15 .joined).line.engine = .abort ∧
    (aborting 15 .joined).view.timebaseLost = false ∧ 16 ≤ (aborting 15 .joined).line.failures + 1 ∧
    (after (exec .abortEnd (aborting 15 .joined))).view.link = .isolated ∧
    (after (exec .abortEnd (aborting 15 .listen))).view.link = .isolated ∧
    (after (exec .abortEnd (aborting 15 .silent))).view.link = .silent := by decide +kernel

/-- An ALARM in flight on a station alone in its shed, with LINE_FAULT as said. -/
def completing (fault : Bool) (link : LinkState) (renewed : Option Bulletin) : State :=
  { withLine (fun l => { l with
      engine := .send, failures := 3, lineFault := fault
      queue := [] ++ { flying (.alarm 1 1) [0, 1, 0, 1] with renewed := renewed } :: [] })
    (withView (fun v => { v with link := link }) live) with
    start := { live.start with strapped := 0, config := { site with header := { site.header with nCfg := 1 } } } }

/-- Nothing else changes, LINE_FAULT clears, and ISOLATED is left; a renewal with the content just sent is gone too. -/
theorem witness_transmission_complete :
    let x (r : Option Bulletin) : Slot := { flying (.alarm 1 1) [0, 1, 0, 1] with renewed := r }
    ((completing false .joined none).start.running = true ∧ (completing false .joined none).line.engine = .send ∧
      (completing false .joined none).line.queue = [] ++ x none :: [] ∧ (x none).sending = some [0, 1, 0, 1] ∧
      ∀ y ∈ ([] ++ [] : List Slot), y.sending = none) ∧
    (completing true .isolated none).line.lineFault = true ∧
    ((completing true .isolated none).view.link = .isolated ∧ (completing true .isolated none).start.config.header.nCfg = 1) ∧
    (after (exec .transmissionComplete (completing true .isolated none))).view.link = .listen ∧
    (after (exec .transmissionComplete (completing false .joined (some (.alarm 1 1))))).line.queue = [] ∧
    (after (exec .transmissionComplete (completing false .joined (some (.alarm 0 1))))).line.queue = [slot (.alarm 0 1)] := by
  decide +kernel

theorem witness_failure_run :
    ∃ s t, s.start.running = true ∧ exec .abortEnd s = .next t ∧ s.line.engine = .abort ∧ s.view.timebaseLost = false ∧
      s.line.failures + 1 = 16 := ⟨aborting 15 .joined, _, by decide, rfl, by decide, by decide, by decide⟩

theorem witness_lengths_accepted :
    lengthAccepted 6 ([1, 2, 3, 4] : List Byte).length = true ∧ lengthAccepted 6 (List.replicate 48 (0 : Byte)).length = true ∧
    lengthAccepted 4 (List.replicate 24 (0 : Byte)).length = true ∧ lengthAccepted 0 (List.replicate 4 (0 : Byte)).length = true := by
  decide +kernel

/-- A frame of kind 5 round the line: sent by station 3 and read by a receiver. -/
theorem test_frame_round_the_line : receiveBits Assembler.start (lineBits 5 3 [0xFF, 0, 0] ++ frameTail) =
    some (.accept 5 3 (bitsOf [0xFF, 0, 0])) := by decide +kernel

/-! ## Witnesses: frames -/

/-- A link state with a configured bay station's frame, and the three senders that are none. -/
theorem witness_peer_frame :
    live.view.link ≠ .isolated ∧ live.view.link = .listen ∧
    ((4 : Station).toNat < 32 ∧ (4 : Station).toNat < live.start.config.header.nCfg ∧ (4 : Station).toNat ≠ live.start.strapped) ∧
    32 ≤ (32 : Station).toNat ∧ live.start.config.header.nCfg ≤ (8 : Station).toNat ∧ (5 : Station).toNat = live.start.strapped ∧
    (withView (fun v => { v with link := .isolated }) live).view.link = .isolated ∧ 2 ≤ live.start.config.header.nCfg ∧
    (heard 0 4 [0, 0, 0, 0] (withView (fun v => { v with link := .isolated }) hearing)).view.link = .listen ∧
    (heard 0 4 [0, 0, 0, 0] (withView (fun v => { v with link := .joined }) hearing)).view.isolationDue = some 1005000 := by
  decide +kernel

/-- ISOLATED is left with its own flag cleared and every other one as it was; with N_cfg 1 it is not left, and no flag changes
(R35, R38). -/
theorem witness_isolated_flag :
    let s : State := { withView (fun v => { v with link := .isolated }) hearing with alarms := { active := 0xFFFF, latched := 0x0020 } }
    let alone : State := { s with start := { s.start with config := { site with header := { site.header with nCfg := 1 } } } }
    (s.view.link = .isolated ∧ 2 ≤ s.start.config.header.nCfg ∧
      (heard 0 4 [0, 0, 0, 0] s).alarms = { active := 0xFFDF, latched := 0x0020 }) ∧
    (alone.view.link = .isolated ∧ alone.start.config.header.nCfg < 2 ∧ (0 : Station).toNat < alone.start.config.header.nCfg ∧
      (0 : Station).toNat ≠ alone.start.strapped ∧ (heard 0 0 [0, 0, 0, 0] alone).alarms = alone.alarms) := by decide +kernel

/-- The own number heard in a BEACON, and in a directive whose group does not match. -/
theorem witness_own_number :
    hearing.start.running = true ∧ hearing.line.engine = .receive ∧ (5 : Station).toNat = hearing.start.strapped ∧
    (Instr.beaconReceived 5 (Vector.replicate 24 0)).frame = some (4, 5, List.replicate 24 0) ∧
    (Instr.beaconReceived 5 (Vector.replicate 24 0)).wellFormed = true ∧
    (Instr.directiveDropped 5 (directive 3 0 3 0 0)).wellFormed = true ∧
    ¬(directiveMatches hearing.start.config.header.group (directive 3 0 3 0 0) = true ∧ directiveKind (directive 3 0 3 0 0) ≠ none) ∧
    queryTarget #v[7, 0, 0] ≠ hearing.start.strapped ∧
    (after (exec (.beaconReceived 5 (Vector.replicate 24 0)) hearing)).view.link = .silent := by decide +kernel

/-- A REPLY, a directive of another group, one of a kind code that names none, and a query for station 7. -/
theorem witness_undelivered :
    hearing.start.running = true ∧ hearing.line.engine = .receive ∧ (40 : Station).toNat ≠ hearing.start.strapped ∧
    directiveMatches hearing.start.config.header.group (directive 3 0 3 0 0) = false ∧ directiveKind (directive 2 9 3 0 0) = none ∧
    queryTarget #v[7, 0, 0] ≠ hearing.start.strapped ∧
    (after (exec (.directiveDropped 40 (directive 2 9 3 0 0)) hearing)).line.engine = .hunt ∧
    (after (exec (.replyReceived 40 [5, 0, 0, 0]) hearing)).view = hearing.view := by decide +kernel

/-- The match table of R13 at group code 0x21, the selector alike, alike in its upper half only, and alike in its lower half only:
EXACT, ZONE, ALL, and the mode codes 3 and 15. -/
theorem witness_match_modes :
    [0x00, 0x10, 0x20, 0x30, 0xF0].map (fun (m : Byte) => [0x21, 0x2F, 0x31].map fun (g : Byte) =>
      directiveMatches 0x21 #v[g, m, 0, 0, 0, 0, 0, 0, 0]) =
    [[true, false, false], [true, true, false], [true, true, true], [false, false, false], [false, false, false]] := by
  decide +kernel

/-- A beacon of a JOINED station at epoch 7, page `page`, gate count 9. -/
def beacon (page : Byte) : Vector Byte 24 :=
  #v[1, 10, 0x60 ||| page, 7, 0, 0x10, 9, 0x80, 0, 0, 0, 0, 0, 0, 0, 0, 0, 0, 0, 0, 0, 0, 0, 0]

/-- The lower neighbour, another peer, a page above 3, and a sender past N_cfg. -/
theorem witness_beacon :
    hearing.start.running = true ∧ hearing.line.engine = .receive ∧ (4 : Station).toNat ≠ hearing.start.strapped ∧
    (4 : Station).toNat + 1 = hearing.start.strapped ∧ (6 : Station).toNat + 1 ≠ hearing.start.strapped ∧
    hearing.start.config.header.nCfg ≤ (8 : Station).toNat ∧
    ((beaconOf (beacon 3)).link = .joined ∧ (beaconOf (beacon 3)).epochKnown = true ∧ (beaconOf (beacon 3)).page.toNat < 4) ∧
    ¬(beaconOf (beacon 4)).page.toNat < 4 ∧
    (after (exec (.beaconReceived 4 (beacon 3)) hearing)).shift.epoch = some 7 ∧
    (after (exec (.beaconReceived 4 (beacon 3)) hearing)).traffic.lowerSeen = some 9 ∧
    (after (exec (.beaconReceived 6 (beacon 4)) hearing)).shift.epoch = none := by decide +kernel

/-- Fields at the ends of their ranges. -/
theorem witness_beacon_fields :
    let f : BeaconFields := { ownBeacon live with
      interval := 100 * 50, occupancy := 15, openUnsealed := 8, temperature := some (-400), netFlow := -32767, draw := 65535
      requests := ⟨65535, 0, 1, 2⟩ }
    f.link ≠ .silent ∧ f.occupancy ≤ 15 ∧ f.openUnsealed ≤ 8 ∧ (5 ≤ 50 ∧ 50 ≤ 50 ∧ f.interval = 100 * 50) ∧
    f.temperature = some (-400) ∧ -32767 ≤ f.netFlow ∧ f.netFlow ≤ 32767 ∧ f.draw < 65536 ∧ f.requests.q0 < 65536 ∧
    f.requests.q3 < 65536 ∧ (beaconBytes f 0x8001).length = 24 := by decide +kernel

/-- Every row of R182 for a BEACON: an interval of 4 and of 51, link state 3, page 4, occupancy 16, gate status 3, gas class 3, a
temperature of 601 and one of −401, a net flow of −32768, 9 open and unsealed doors. -/
theorem witness_beacon_out_of_range :
    let p (interval hi lo : Byte) : Vector Byte 24 :=
      #v[0, interval, 0xC4, 0, 16, 0x3C, 0, hi, lo, 0x80, 0, 9, 0, 0, 0, 0, 0, 0, 0, 0, 0, 0, 0, 0]
    let f := beaconOf (p 4 0x02 0x59)
    (((0x02 : Byte) ++ (0x59 : Byte)).toInt = 601 ∧ ((0xFE : Byte) ++ (0x6F : Byte)).toInt = -401 ∧
      ((0x80 : Byte) ++ (0x00 : Byte)).toInt = -32768) ∧
    f.interval = 500 ∧ (beaconOf (p 51 0xFE 0x6F)).interval = 5000 ∧ f.link = .isolated ∧ f.page = 4 ∧ f.occupancy = 15 ∧
    f.gate = .fault ∧ f.gas = .critical ∧ f.temperature = none ∧ (beaconOf (p 51 0xFE 0x6F)).temperature = none ∧
    f.netFlow = -32767 ∧ f.openUnsealed = 8 := by decide +kernel

/-- UP from the lower neighbour, DOWN meeting a count of 0, a lead-in at distance 2, and a direction code of 2. -/
theorem witness_handoff :
    hearing.start.running = true ∧ hearing.line.engine = .receive ∧ (4 : Station).toNat ≠ hearing.start.strapped ∧
    (0x12 : Byte).toNat / 16 < 2 ∧ 2 ≤ (0x20 : Byte).toNat / 16 ∧
    (after (exec (.handoffReceived 4 #v[0, 41, 0, 200]) hearing)).traffic.count = 1 ∧
    (after (exec (.handoffReceived 2 #v[0, 41, 0, 200]) hearing)).lighting.bay = .leadIn ∧
    (after (exec (.handoffReceived 2 #v[1, 41, 0, 200]) hearing)).lighting.bay = .vacant ∧
    (after (exec (.handoffReceived 4 #v[0x20, 41, 0, 0]) hearing)).traffic.lowerSeen = none := by decide +kernel

/-- The station at an epoch and a page. -/
def at_ (e : Option Byte) (page : Fin 4) (s : State) : State := s.setShift { s.shift with epoch := e, page := page }

/-- From UNKNOWN, one ahead and 127 ahead, across the wrap. -/
theorem witness_shift_adopted :
    (at_ none 1 hearing).shift.epoch = none ∧ (#v[3, 3] : Vector Byte 2)[1].toNat < 4 ∧
    (1 ≤ ((18 : Byte) - 17).toNat ∧ ((18 : Byte) - 17).toNat ≤ 127) ∧
    (1 ≤ ((71 : Byte) - 200).toNat ∧ ((71 : Byte) - 200).toNat ≤ 127) ∧
    (after (exec (.shiftReceived 9 #v[71, 2]) (at_ (some 200) 1 hearing))).shift.epoch = some 71 ∧
    (after (exec (.shiftReceived 9 #v[5, 0]) (at_ none 1 hearing))).shift.epoch = some 5 := by decide +kernel

/-- The page 4, an epoch 128 ahead, the own epoch with a page not lower, and with a lower one in CHANGEOVER. -/
theorem witness_shift_not_adopted :
    4 ≤ (#v[17, 4] : Vector Byte 2)[1].toNat ∧
    ((72 : Byte) ≠ 200 ∧ ¬(1 ≤ ((72 : Byte) - 200).toNat ∧ ((72 : Byte) - 200).toNat ≤ 127)) ∧
    (at_ (some 17) 2 hearing).shift.page.val ≤ (#v[17, 2] : Vector Byte 2)[1].toNat ∧
    (#v[17, 1] : Vector Byte 2)[1].toNat < (at_ (some 17) 2 hearing).shift.page.val ∧
    (after (exec (.shiftReceived 9 #v[72, 0]) (at_ (some 200) 1 hearing))).shift.epoch = some 200 ∧
    (after (exec (.shiftReceived 9 #v[17, 1]) (at_ (some 17) 2 hearing))).shift.page = 1 := by decide +kernel

theorem witness_alarm :
    hearing.start.running = true ∧ hearing.line.engine = .receive ∧ (7 : Station).toNat ≠ hearing.start.strapped ∧
    ((7 : Station).toNat < 32 ∧ (7 : Station).toNat < hearing.start.config.header.nCfg) ∧
    hearing.start.config.header.nCfg ≤ (8 : Station).toNat ∧
    ((after (exec (.alarmReceived 7 #v[0x80, 0, 0, 0]) hearing)).view.entries[7]?).bind PeerEntry.alarms = some 0x8000 := by
  decide +kernel

/-! ## Witnesses: directives and queries -/

/-- A full stack whose weakest entry is the second. -/
def fullStack : List OverrideEntry :=
  [tool 40 3 .hold none] ++ tool 41 1 .hold none :: [tool 42 1 .hold none, tool 43 2 .hold none]

/-- The four cases of an offer, and the ruling entry between an earlier equal and a later lower one. -/
theorem witness_override_stacks :
    (∃ x ∈ fullStack, x.source = (tool 40 1 .stop none).source ∧ x.origin = (tool 40 1 .stop none).origin) ∧
    ((∀ x ∈ fullStack.take 3, ¬(x.source = SourceKind.directive ∧ x.origin = some 44)) ∧ (fullStack.take 3).length < 4) ∧
    ((∀ x ∈ fullStack, ¬(x.source = SourceKind.directive ∧ x.origin = some 44)) ∧ fullStack.length = 4 ∧
      (∀ x ∈ [tool 40 3 .hold none], (1 : Nat) < x.precedence) ∧
      (∀ x ∈ [tool 42 1 .hold none, tool 43 2 .hold none], (1 : Nat) ≤ x.precedence) ∧
      fullStack.Pairwise fun a b => ¬(a.source = b.source ∧ a.origin = b.origin)) ∧
    (∀ e ∈ fullStack, e.precedence ≤ 7) ∧ (∀ x ∈ fullStack, x.precedence < manualEntry.precedence) ∧
    manualEntry ∈ offerEntry manualEntry fullStack ∧
    offerEntry (tool 44 1 .stop none) fullStack = fullStack ∧
    ruling ([tool 40 3 .hold none] ++ tool 41 3 .stop none :: [tool 42 2 .hold none]) = some (tool 41 3 .stop none) := by
  decide +kernel

/-- Each of the six, with its group matched; the mask and the direction that name nothing are ignored whole. -/
theorem witness_placing :
    hearing.start.running = true ∧ hearing.line.engine = .receive ∧ (40 : Station).toNat ≠ hearing.start.strapped ∧
    directiveMatches hearing.start.config.header.group (directive 0 0 9 150 3) = true ∧
    directiveMatches hearing.start.config.header.group (directive 1 4 9 0 3) = true ∧
    (∀ k ∈ List.range 6, (directive 2 k 9 0 3)[1].toNat % 16 = k) ∧
    (after (exec (.lightSet 40 (directive 0 0 9 150 3)) hearing)).overrides.light =
      [tool 40 6 (.level 100 3) (some 1300000)] ∧
    (after (exec (.lightSet 40 (directive 0 0 9 150 0x10)) hearing)).overrides.light = [] ∧
    (after (exec (.ventPurge 40 (directive 1 4 0 1 99)) hearing)).overrides.vent =
      [tool 40 1 (.purge .exhaust 95) (some 1300000)] ∧
    (after (exec (.ventPurge 40 (directive 1 4 0 2 99)) hearing)).overrides.vent = [] := by decide +kernel

/-- A RELEASE of one's own entry, one with the all flag, and an acknowledgement. -/
theorem witness_release :
    let s : State := { hearing with
      overrides := { hearing.overrides with heat := [tool 40 3 .hold none, tool 41 3 .hold none] }
      alarms := { active := 0, latched := 0x2000 } }
    s.start.running = true ∧ s.line.engine = .receive ∧ (40 : Station).toNat ≠ s.start.strapped ∧
    directiveMatches s.start.config.header.group (directive 2 6 0 2 0) = true ∧ (directive 2 6 0 2 0)[1].toNat % 16 = 6 ∧
    (directive 2 7 0 0 0)[1].toNat % 16 = 7 ∧
    (after (exec (.release 40 (directive 2 6 0 2 0)) s)).overrides.heat = [tool 41 3 .hold none] ∧
    (after (exec (.release 40 (directive 2 6 0 0x82 0)) s)).overrides.heat = [] ∧
    (after (exec (.alarmAck 40 (directive 2 7 0 0 0)) s)).alarms.latched = 0 := by decide +kernel

theorem witness_restart :
    let s : State := { at_ (some 17) 2 hearing with start := { live.start with config := { site with
      lighting := { site.lighting with channels := { rated := 30, mode := .followInverted } :: site.lighting.channels.drop 1 } } } }
    s.start.running = true ∧ s.line.engine = .receive ∧ (40 : Station).toNat ≠ s.start.strapped ∧
    directiveMatches s.start.config.header.group (directive 2 8 0 0 0) = true ∧ (directive 2 8 0 0 0)[1].toNat % 16 = 8 ∧
    (after (exec (.restart 40 (directive 2 8 0 0 0)) s)).start.running = false ∧
    lightingDuties (after (exec (.restart 40 (directive 2 8 0 0 0)) s)) = [100, 0, 0, 0] ∧
    (after (exec (.restart 40 (directive 2 8 0 0 0)) s)).shift.epoch = some 17 := by decide +kernel

/-- The first and the last index of each record kind of Table 45 on a station with two doors and two stages, and the indices
beyond them; a record kind that names none. -/
theorem test_record_kinds :
    live.start.config.doorCount = 2 ∧ live.start.config.heat.stages.length = 2 ∧
    (∀ x ∈ [(0, 0), (1, 0), (1, 31), (2, 0), (2, 2), (3, 1), (3, 2), (4, 0), (4, 2), (5, 0), (5, 12)],
      (recordBody x.1 x.2 live).isSome = true) ∧
    (∀ x ∈ [(0, 1), (1, 32), (2, 3), (3, 0), (3, 3), (4, 3), (5, 13), (6, 0), (255, 0)],
      recordBody x.1 x.2 live = none) := by decide +kernel

/-- A query for a record that is there, one of a kind that names none, and the same tool's later question, which replaces the first answer. -/
theorem witness_queries :
    hearing.start.running = true ∧ hearing.line.engine = .receive ∧ (40 : Station).toNat ≠ hearing.start.strapped ∧
    (#v[5, 3, 2] : Vector Byte 3)[0].toNat % 64 = hearing.start.strapped ∧ (#v[5, 3, 2] : Vector Byte 3)[1].toNat = 3 ∧
    (after (exec (.queryDoor 40 #v[5, 3, 2]) hearing)).line.queue.length = 1 ∧
    (after (exec (.queryStatus 40 #v[5, 6, 0]) hearing)).line.queue = [slot (.reply 40 6 0 false [])] ∧
    ((withLine (fun l => { l with engine := .receive }) (after (exec (.queryDoor 40 #v[5, 3, 2]) hearing))) |>
      fun s => (after (exec (.queryDoor 40 #v[5, 3, 5]) s)).line.queue) = [slot (.reply 40 3 5 false [])] := by decide +kernel

theorem witness_replies_fit : StacksOk live ∧ StacksOk { live with overrides := { live.overrides with heat := fullStack } } := by
  constructor <;> constructor <;> constructor <;> decide +kernel

/-! ## Witnesses: the transmit queue -/

/-- Four HANDOFFs, the first in flight, and a BEACON between. -/
def fourHandoffs : State := withLine (fun l => { l with
  engine := .send, queue := [flying handoff [], slot .beacon] ++ slot handoff :: [slot handoff, slot handoff] }) live

theorem witness_queue_insertion :
    live.view.link ≠ .silent ∧ kindOf .beacon = 4 ∧ (∀ x ∈ live.line.queue, kindOf x.content ≠ 4) ∧
    (queued.line.queue = [slot .beacon] ++ slot handoff :: [slot .beacon] ∧ countKind 1 queued.line.queue < 4) ∧
    ((withLine (fun l => { l with queue := [slot (.alarm 1 1)], lastAlarm := some (0, 0) }) live).line.queue =
        [] ++ slot (.alarm 1 1) :: [] ∧ (slot (.alarm 1 1)).sending = none) ∧
    (fourHandoffs.line.queue = [flying handoff [], slot .beacon] ++ slot handoff :: [slot handoff, slot handoff] ∧
      (∀ y ∈ [flying handoff [], slot .beacon], kindOf y.content = 1 → y.sending ≠ none) ∧
      countKind 1 fourHandoffs.line.queue = 4) ∧
    (offer handoff fourHandoffs).line.queue = [flying handoff [], slot .beacon, slot handoff, slot handoff, slot handoff] ∧
    (offer (.alarm 0 0) (withLine (fun l => { l with queue := [slot (.alarm 1 1)], lastAlarm := some (0, 0) }) live)).line.queue
      = [] := by decide +kernel

/-! ## Witnesses: starts -/

/-- An image whose bytes 0 to 253 sum to the value of bytes 254 and 255, with format byte `f` and station count 8. -/
def image (f : Byte) : List Byte := [f, 8] ++ List.replicate 252 0 ++ [0, f + 8]

/-- No answer at 255 bytes, a wrong sum, a wrong format, a GOOD image and one that puts the straps out of range. -/
theorem witness_start_outcomes :
    ((image 0x21).take 255).length < 256 ∧ 256 ≤ (image 0x21).length ∧
    startOutcome ((image 0x21).take 255) 5 = .noAnswer ∧
    startOutcome ([0x21, 7] ++ (image 0x21).drop 2) 5 = .sum ∧ startOutcome (image 0x20) 5 = .format ∧
    startOutcome (image 0x21) 7 = .good ∧ startOutcome (image 0x21) 8 = .strapRange := by decide +kernel

/-- Values of Table 52 at their bytes: door 2's ratings, stage 2, fan 2, the CO thresholds, the temperature limits, channel 3 and
page 1's setpoints; and the values that an image of 0xFF bytes is taken as. -/
theorem test_image_layout :
    let values : List (Nat × Byte) := [(92, 2), (93, 1), (94, 44), (100, 60), (114, 5), (121, 2), (128, 1), (129, 44), (131, 120),
      (133, 180), (154, 75), (156, 100), (157, 30), (158, 1), (159, 244), (168, 35), (170, 100), (172, 10), (181, 50), (182, 1),
      (183, 144), (184, 10), (84, 30), (85, 3), (26, 1), (36, 0xFF), (37, 0xFB), (38, 0), (39, 180)]
    let image : List Byte := (List.range 256).map fun i => (values.lookup i).getD 0
    let c := configOf image
    let full := configOf (List.replicate 256 0xFF)
    (c.doors = { holdLimit := 300, recovery := 0, curtains := [0, 60], docks := [0, 5] } ∧
      c.heat.stages[1]? = some { rated := 300, minOn := 120, minOff := 180 } ∧
      c.air.fan2 = { rated := 75, flow := 100, coast := 30, ramp := 500 } ∧
      c.air.co = { fullScale := 500, action := 35, critical := 100, band := 10 } ∧
      (c.heat.criticalLow, c.heat.high, c.heat.hysteresis) = (50, 400, 10) ∧
      c.lighting.channels[2]? = some { rated := 30, mode := .fullForced } ∧
      c.pages[1]?.map (fun q => (q.pageClass, q.occupied, q.unoccupied)) = some (.idle, -5, 180)) ∧
    (full.header.nCfg = 32 ∧ full.header.interval = 5000 ∧ full.doors.holdLimit = 3600 ∧ full.doors.curtains = List.replicate 8 500 ∧
      full.heat.hysteresis = 10 ∧ (full.heat.criticalLow, full.heat.high) = (-11, -1) ∧ full.heat.boostDelta = 50 ∧
      full.air.no2 = { fullScale := 200, action := 200, critical := 200, band := 199 } ∧ full.gate.zoneHold = 300 ∧
      full.meter = { weight := 1000, creep := 600, margin := 500 } ∧ full.pages.map Page.next = [3, 3, 3, 3]) := by decide +kernel

/-- What station 5 reads with that image, its MANUAL input asserted. -/
def reading : StartReading :=
  { straps := 5, image := image 0x21, beamA := false, beamB := true, presence := Vector.replicate 4 false, manual := true
    shift := true, contacts := Vector.replicate 8 false, trailers := Vector.replicate 8 true
    temperature := some 181, co := some 0, no2 := none }

theorem witness_start_sequence_end :
    State.reset.start.running = false ∧ (after (exec (.startSequenceEnd reading) State.reset)).start.running = true ∧
    (after (exec (.startSequenceEnd reading) State.reset)).view.link = .listen ∧
    (after (exec (.startSequenceEnd reading) State.reset)).overrides.light.length = 1 ∧
    (after (exec (.startSequenceEnd reading) State.reset)).shift.input = raised none true 0 ∧
    (after (exec (.startSequenceEnd reading) State.reset)).air.gasClass = .action := by decide +kernel

theorem witness_starts_alone :
    ∃ t, exec .meterPulse State.reset = .next t ∧ Instr.meterPulse ≠ .powerOnReset ∧
      (∀ r, Instr.meterPulse ≠ .startSequenceEnd r) ∧ (∀ st p, Instr.meterPulse ≠ .restart st p) ∧
      State.reset.start.running = false ∧ Instr.meterPulse ≠ .timebaseLost ∧ Instr.meterPulse ≠ .timebaseRecovered :=
  ⟨_, rfl, nofun, fun _ => nofun, fun _ _ => nofun, rfl, nofun, nofun⟩

/-! ## Witnesses: peer view -/

/-- The schedule reached to the millisecond, outside SILENT, in SILENT, and in JOINED with balance-available set; and the
views of Table 32, within the deadband and beyond it. -/
theorem witness_beacon_scheduling :
    live.start.running = true ∧ live.view.nextBeacon ≤ live.clock ∧ live.view.link ≠ .silent ∧
    (withView (fun v => { v with link := .silent }) live).view.link = .silent ∧
    (after (exec .beaconScheduling live)).view.sequence = 1 ∧
    ((views32 50 70 50 1).map BalanceView.netFlow).sum = -40 ∧ (-(50 : Int) ≤ -40 ∧ (-40 : Int) ≤ 50) ∧
    (-(table32.fan2.flow : Int) ≤ 0 ∧ (0 : Int) ≤ table32.fan2.flow) ∧
    (((views32 0 20 0 1).map BalanceView.netFlow).sum = -190 ∧ (-190 : Int) < -50 ∧
      (views32 0 20 0 1).countP (fun v => v.available) = 3 ∧ max (-100) (min 100 (0 + max (-25) (min 25 ((190 : Int).tdiv 3)))) = 25) :=
  by decide +kernel

/-- The counted entries of a balancing step in entry order: FRESH, STALE and the own one; an ABSENT and a LOST one are not (R133). -/
theorem test_balance_views :
    let entry (state : EntryState) (flow : Int) : PeerEntry := { PeerEntry.empty with
      state := state, beacon := some { ownBeacon live with netFlow := flow, openUnsealed := 1, available := true } }
    let s : State := { live with
      view := { live.view with entries := [entry .fresh 10, entry .lost 20, PeerEntry.empty, entry .stale 30, PeerEntry.empty,
        PeerEntry.empty, entry .absent 40] }
      air := { live.air with netFlow := -7, available := false } }
    balanceViews s = [{ netFlow := 10, openUnsealed := 1, available := true }, { netFlow := 30, openUnsealed := 1, available := true },
      { netFlow := -7, openUnsealed := 0, available := false }] := by decide +kernel

/-- The beacon of 1000 ms of entry `n`, heard at `heardAt`. -/
def heardEntry (st : EntryState) (heardAt : Nat) : PeerEntry :=
  { state := st, heardAt := heardAt, beacon := some (beaconOf (beacon 1)), alarms := none }

/-- The station with that entry of the lower neighbour. -/
def withEntry (e : PeerEntry) (s : State) : State := withView (fun v => { v with entries := v.entries.set 4 e }) s

theorem witness_entry_ageing :
    (beaconOf (beacon 1)).interval = 1000 ∧
    ((withEntry (heardEntry .fresh 997000) live).view.entries[4]? = some (heardEntry .fresh 997000) ∧
      997000 + 3 * 1000 ≤ (withEntry (heardEntry .fresh 997000) live).clock) ∧
    ((withEntry (heardEntry .stale 990000) live).view.entries[4]? = some (heardEntry .stale 990000) ∧
      990000 + 10 * 1000 ≤ (withEntry (heardEntry .stale 990000) live).clock) ∧
    ((after (exec (.entryStale 4) (withEntry (heardEntry .fresh 997000) live))).view.entries[4]?).map PeerEntry.state = some .stale ∧
    ((after (exec (.entryStale 4) (withEntry (heardEntry .fresh 997001) live))).view.entries[4]?).map PeerEntry.state = some .fresh ∧
    ((after (exec (.entryLost 4) (withEntry (heardEntry .stale 990000) live))).view.entries[4]?).map PeerEntry.state = some .lost :=
  by decide +kernel

theorem witness_link_timers :
    live.start.running = true ∧ live.view.link = .listen ∧ live.view.listenDue = some 1000000 ∧ 1000000 ≤ live.clock ∧
    (live.view.heard = false ∧ live.start.config.header.nCfg ≠ 1) ∧
    (withView (fun v => { v with heard := true }) live).view.heard = true ∧
    ((withView (fun v => { v with link := .joined, isolationDue := some 1000000 }) live).view.isolationDue = some 1000000 ∧
      2 ≤ live.start.config.header.nCfg) ∧
    (after (exec .listenTimerExpiry live)).view.link = .isolated ∧
    (after (exec .listenTimerExpiry (withView (fun v => { v with heard := true }) live))).view.link = .joined ∧
    (after (exec .isolationTimerExpiry
      (withView (fun v => { v with link := .joined, isolationDue := some 1000000 }) live))).view.link = .isolated := by
  decide +kernel

/-- The timebase present, lost, and lost for 100 ms to the millisecond, on a running station and during a start. -/
theorem witness_timebase :
    let lost (s : State) : State := withView (fun v => { v with
      link := .silent, timebaseLost := true, timebaseMark := 999900, causes := { v.causes with timebase := true } }) s
    (live.view.timebaseLost = false ∧ live.start.running = true) ∧
    (State.reset.view.timebaseLost = false ∧ State.reset.start.running = false) ∧
    ((lost live).view.timebaseLost = true ∧ (lost live).view.timebaseMark + 100 ≤ (lost live).clock) ∧
    (after (exec .timebaseLost live)).view.link = .silent ∧
    (after (exec .timebaseRecovered (lost live))).view.link = .listen ∧
    (after (exec .timebaseRecovered { lost live with clock := 999999 })).view.link = .silent := by decide +kernel

/-! ## Witnesses: shifts, override expiries, traffic -/

/-- A raw change; a press outside lockout and within it and a first level, each with the raw level held for 50 ms to the
millisecond; and one that has held for 49 ms. -/
theorem witness_shift_press :
    let s (level : Option Bool) (since : Nat) (lockout : Option Nat) : State := live.setShift { live.shift with
      epoch := some 255, input := raised level true since, lockoutDue := lockout }
    (s (some false) 999950 none).start.running = true ∧ live.shift.input.raw ≠ true ∧
    (s (some false) 999950 none).shift.input.raw = true ∧ (s (some false) 999950 none).shift.input.level ≠ some true ∧
    (s none 999950 none).shift.input.level = none ∧ 999950 + 50 ≤ live.clock ∧
    (s (some false) 999950 (some 1000001)).shift.lockoutDue ≠ none ∧
    (after (exec (.shiftInputChange true .raw) live)).shift.input = raised (some false) true 1000000 ∧
    (after (exec (.shiftInputChange true .stable) (s (some false) 999950 none))).shift.epoch = some 0 ∧
    (after (exec (.shiftInputChange true .stable) (s (some false) 999951 none))).shift.epoch = some 255 ∧
    (after (exec (.shiftInputChange true .stable) (s (some false) 999950 (some 1000001)))).shift.epoch = some 255 ∧
    (after (exec (.shiftInputChange true .stable) (s none 999950 none))).shift.epoch = some 255 := by decide +kernel

/-- A press that shows since 999951 is debounced by the tick to 1000001, and not by the one before it (R45). -/
theorem test_debounced_by_ticks :
    let s : State := live.setShift { live.shift with input := raised (some false) true 999951 }
    .shiftInputChange true .stable ∈ (after (Machine.step s)).pending ∧
    .shiftInputChange true .stable ∉ (after (Machine.step { s with clock := 999999 })).pending := by decide +kernel

theorem witness_timers_expire :
    let s : State := { live with
      shift := { live.shift with phase := .changeover, changeoverDue := some 1000000, lockoutDue := some 1000000 }
      lighting := { live.lighting with bay := .leadIn, leadInDue := some 1000000, vacatingDue := some 1000000 }
      overrides := { live.overrides with vent := [tool 40 3 .stop (some 1000000)] } }
    (s.start.running = true ∧ 1000000 ≤ s.clock) ∧ s.shift.changeoverDue = some 1000000 ∧ s.shift.lockoutDue = some 1000000 ∧
    s.lighting.leadInDue = some 1000000 ∧ s.lighting.vacatingDue = some 1000000 ∧
    (tool 40 3 .stop (some 1000000) ∈ s.overrides.vent ∧ (tool 40 3 .stop (some 1000000)).expiry = some 1000000) ∧
    (after (exec .changeoverTimerExpiry s)).shift.phase = .steady ∧
    (after (exec .leadInTimerExpiry s)).lighting.bay = .vacant ∧
    (after (exec (.overrideExpiry .vent .directive (some 40)) s)).overrides.vent = [] := by decide +kernel

/-- A lead-in trigger waits at the instant of the vacating timer's expiry: the expiry does nothing, and the trigger takes the
bay from VACATING to LEAD_IN with a full lead-in time, its published level never VACANT's (R78); a beam that brings a forklift
and a presence input wait the same way, any other command does not. -/
theorem witness_expiry_waits :
    let s (c : Instr) : State := { hearing with
      lighting := { live.lighting with bay := .vacating, vacatingDue := some 1000000 }
      traffic := { live.traffic with beamA := true, position := -3 }
      pending := [.meterCheck, c] }
    let trigger : Instr := .handoffReceived 2 #v[0, 41, 0, 200]
    bayMoveWaits (s trigger) = true ∧ after (exec .vacatingTimerExpiry (s trigger)) = s trigger ∧
    (after (exec trigger (s trigger))).lighting.bay = .leadIn ∧
    (after (exec trigger (s trigger))).lighting.leadInDue =
      some (1000000 + (s trigger).start.config.lighting.leadIn * 1000) ∧ 1 ≤ (s trigger).start.config.lighting.leadIn ∧
    (after (exec .vacatingTimerExpiry (after (exec trigger (s trigger))))).lighting.bay = .leadIn ∧
    bayMoveWaits (s (.presenceAsserted 3)) = true ∧ bayMoveWaits (s (.gateBeamChange .a)) = true ∧
    bayMoveWaits (s .lockoutTimerExpiry) = false ∧
    (after (exec .vacatingTimerExpiry (s .lockoutTimerExpiry))).lighting.bay = .vacant := by decide +kernel

/-- The station with a traffic unit changed. -/
def withTraffic (f : Traffic → Traffic) (s : State) : State := s.setTraffic (f s.traffic)

/-- A gate at a held pair and a position, its stamps 200 ms apart. -/
def gateAt (a b : Bool) (position : Int) : State := withTraffic (fun t => { t with
  beamA := a, beamB := b, position := position, first := some 999000, second := some 999200, gateCount := 40, count := 1 }) live

/-- A passage begins, goes on and backs; WAITING at a pair that stays and at one that ends at (0,0); FAULT. -/
theorem witness_gate_step :
    live.start.running = true ∧ live.traffic.gate ≠ .none ∧ (live.traffic.gate = .ok ∧ live.traffic.tracking = true) ∧
    (after (exec (.gateBeamChange .a) live)).traffic.position = 1 ∧
    (after (exec (.gateBeamChange .b) (gateAt true false 1))).traffic.position = 2 ∧
    (after (exec (.gateBeamChange .a) (gateAt false true 3))).traffic.clean = false ∧
    (withTraffic (fun t => { t with tracking := false, beamA := true }) live).traffic.tracking = false ∧
    (after (exec (.gateBeamChange .a) (withTraffic (fun t => { t with tracking := false, beamA := true }) live))).traffic.tracking = true ∧
    (after (exec (.gateBeamChange .b) (withTraffic (fun t => { t with tracking := false, beamA := true }) live))).traffic.tracking = false ∧
    (withTraffic (fun t => { t with gate := .fault }) live).traffic.gate = .fault := by decide +kernel

/-- UP as gate 1 of One Forklift Through Four Bays has it (count 40 to 41, FAST, 200 ms), DOWN, and the two back-outs. -/
theorem witness_gate_crossing :
    ((gateAt false true 3).traffic.beamA = false ∧ (gateAt false true 3).traffic.beamB = true ∧
      (gateAt false true 3).traffic.position = 3) ∧
    ((gateAt true false (-3)).traffic.beamA = true ∧ (gateAt true false (-3)).traffic.beamB = false) ∧
    (gateAt true false 1).traffic.position = 1 ∧ (gateAt false true (-1)).traffic.position = -1 ∧
    (after (exec (.gateBeamChange .b) (gateAt false true 3))).traffic.gateCount = 41 ∧
    (after (exec (.gateBeamChange .b) (gateAt false true 3))).traffic.count = 0 ∧
    slot handoff ∈ (after (exec (.gateBeamChange .b) (gateAt false true 3))).line.queue ∧
    (after (exec (.gateBeamChange .a) (gateAt true false (-3)))).traffic.count = 2 ∧
    (after (exec (.gateBeamChange .a) (gateAt true false 1))).traffic.gateCount = 40 := by decide +kernel

/-- The second invalid transition in 60 s, the third, one in FAULT, and the quiet time reached to the millisecond. -/
theorem witness_gate_faults :
    let old (l : List Nat) : State := withTraffic (fun t => { t with invalid := l }) live
    let fault (q : Nat) : State := withTraffic (fun t => { t with gate := .fault, quietSince := some q }) live
    ((old [939999, 940000]).traffic.invalid.filter fun e => decide (live.clock - e ≤ 60000)).length < 2 ∧
    2 ≤ ((old [940000, 999000]).traffic.invalid.filter fun e => decide (live.clock - e ≤ 60000)).length ∧
    (after (exec .invalidTransition (old [939999, 940000]))).traffic.gate = .ok ∧
    (after (exec .invalidTransition (old [940000, 999000]))).traffic.gate = .fault ∧
    ((fault 400000).traffic.quietSince = some 400000 ∧ 400000 + 600000 ≤ (fault 400000).clock) ∧
    (after (exec .gateFaultClear (fault 400000))).traffic.gate = .ok ∧
    (after (exec .gateFaultClear (fault 400001))).traffic.gate = .fault := by decide +kernel

/-- A zone released, asserted, and held to the millisecond; the vacancy limit and its quarter. -/
theorem witness_presence :
    let zone (z : Zone) : State := withTraffic (fun t => { t with zones := t.zones.set 1 z }) live
    let vacant (u : Bool) (v : Nat) : State := withTraffic (fun t => { t with count := 3, uncertain := u, vacancySince := some v }) live
    (zone ⟨false, none⟩).traffic.zones[1]? = some ⟨false, none⟩ ∧ (zone ⟨true, none⟩).traffic.zones[1]? = some ⟨true, none⟩ ∧
    ((zone ⟨false, some 970000⟩).traffic.zones[1]? = some ⟨false, some 970000⟩ ∧ 970000 + 30 * 1000 ≤ live.clock) ∧
    ((vacant false 700000).traffic.vacancySince = some 700000 ∧ 700000 + 300 * 1000 ≤ live.clock) ∧
    ((vacant true 925000).traffic.uncertain = true ∧ 925000 + 300 * 250 ≤ live.clock) ∧
    (after (exec (.presenceAsserted 1) (zone ⟨false, none⟩))).lighting.bay = .occupied ∧
    (after (exec (.presenceReleased 1) (zone ⟨true, none⟩))).traffic.zones[1]? = some ⟨false, some 1000000⟩ ∧
    (after (exec (.zoneHoldExpiry 1) (zone ⟨false, some 970000⟩))).traffic.zones[1]? = some ⟨false, none⟩ ∧
    (after (exec .vacancyCorrection (vacant true 925000))).traffic.count = 0 ∧
    (after (exec .vacancyCorrection (vacant false 925000))).traffic.count = 3 := by decide +kernel

/-! ## Witnesses: lighting and doors -/

theorem witness_manual :
    let s (level raw : Bool) : State := live.setLighting { live.lighting with manual := raised (some level) raw 999950 }
    (live.start.running = true ∧ live.lighting.manual.raw ≠ true ∧ (s true true).lighting.manual.raw ≠ false) ∧
    ((s false true).lighting.manual.raw = true ∧ 999950 + 50 ≤ live.clock ∧ (s false true).lighting.manual.level ≠ some true) ∧
    ((s true false).lighting.manual.raw = false ∧ (s true false).lighting.manual.level ≠ some false) ∧
    (after (exec (.manualAsserted .raw) live)).lighting.manual = raised (some false) true 1000000 ∧
    (after (exec (.manualAsserted .stable) (s false true))).overrides.light = [manualEntry] ∧
    (after (exec (.manualReleased .stable)
      { s true false with overrides := { light := [manualEntry], heat := [], vent := [] } })).overrides.light = [] := by
  decide +kernel

/-- A channel that rises from 3 % toward 80 % since 996150 (Lighting Ahead of a Forklift). -/
def risingChannel : Channel :=
  { desired := 80, tier := some 1, granted := 80, target := 80, present := 79, rise := some (3, 996150) }

/-- The station with that channel and a fan 1. -/
def moving (f : Fan) : State :=
  (live.setLighting { live.lighting with channels := live.lighting.channels.set 0 risingChannel }).setAir
    { live.air with fan1 := f }

/-- A fan called for by `target`, in a state with its timer at 1000000. -/
def fanAt (st : FanState) (target : Nat) : Fan := { Fan.fresh with
  state := st, desired := target, granted := target, target := target, coastDue := some 1000000, rampDue := some 1000000
  present := if st = .running then 5 else 0, direction := if st = .running then some .supply else none }

/-- Channels at a new setting: a fall, a rise from the level it has, and a rise that goes on. -/
theorem witness_track_channel :
    let c : Channel := { desired := 80, tier := some 1, granted := 30, target := 40, present := 40, rise := none }
    min c.desired c.granted ≤ c.present ∧ (trackChannel 7 c).present = 30 ∧
    (c.present < min c.desired { c with granted := 80 }.granted ∧ c.rise = none) ∧
    (trackChannel 7 { c with granted := 80 }).rise = some (40, 7) ∧
    (trackChannel 7 { c with granted := 80, rise := some (3, 5) }).rise = some (3, 5) := by decide

/-- Fans at a new setting: Figure 9, state by state. -/
theorem witness_drive_fan :
    let k : FanConfig := { rated := 75, flow := 100, coast := 30, ramp := 500 }
    let f (st : FanState) (dir : Option AirDir) (target present : Nat) (ramp : Option Nat) : Fan := { Fan.fresh with
      state := st, direction := dir, requested := .exhaust, desired := target, granted := 100, present := present, rampDue := ramp }
    ((driveFan 9 k (f .stopped none 40 0 none)).present = 5 ∧ (driveFan 9 k (f .stopped none 0 0 none)).state = .stopped) ∧
    ((driveFan 9 k (f .coasting (some .exhaust) 40 0 none)).state = .running ∧
      (driveFan 9 k (f .coasting (some .supply) 40 0 none)).state = .coasting ∧
      (driveFan 9 k (f .coasting none 40 0 none)).state = .coasting) ∧
    ((driveFan 9 k (f .running (some .exhaust) 0 40 none)).coastDue = some 30009 ∧
      (driveFan 9 k (f .running (some .supply) 40 40 none)).state = .coasting) ∧
    (driveFan 9 k (f .running (some .exhaust) 20 40 none)).present = 20 ∧
    (driveFan 9 k (f .running (some .exhaust) 40 20 none)).present = 25 ∧
    (driveFan 9 k (f .running (some .exhaust) 40 20 (some 11))).present = 20 := by decide

theorem witness_fade_coast_ramp :
    let s := moving (fanAt .coasting 0)
    let c := risingChannel
    (s.lighting.channels[0]? = some c ∧ 1 ≤ s.start.config.lighting.fade ∧ c.present < c.target ∧ 3 ≤ c.present ∧
      (c.present + 1 - 3) * 1000 ≤ s.start.config.lighting.fade * (s.clock - 996150)) ∧
    ((fanAt .coasting 0).coastDue = some 1000000 ∧ 1000000 ≤ s.clock) ∧ 0 < (fanAt .coasting 40).target ∧
    (fanAt .running 40).rampDue = some 1000000 ∧
    ((after (exec (.levelRiseStep 0) s)).lighting.channels[0]?).map Channel.present = some 80 ∧
    (after (exec (.coastTimerExpiry 0) s)).air.fan1.state = .stopped ∧
    (after (exec (.coastTimerExpiry 0) (moving (fanAt .coasting 40)))).air.fan1.present = 5 ∧
    (after (exec (.rampTimerExpiry 0) (moving (fanAt .running 40)))).air.fan1.present = 10 ∧
    (after (exec (.rampTimerExpiry 0) (moving (fanAt .running 7)))).air.fan1.present = 7 := by decide +kernel

/-- The station with its door 1. -/
def withDoor (d : Door) : State := live.setDoors { live.doors with records := live.doors.records.set 0 d }

/-- A door in a state with its levels, both raw levels open and present since 500 ms ago. -/
def doorIn (st : DoorState) (contact trailer : Option Bool) : Door := { shutDoor with
  state := st, contact := raised contact true 999500, trailer := raised trailer true 999500
  holdSince := if st = .openUnsealed then some 700000 else none
  stableSince := if st = .fault then some 880000 else none
  openMark := if isOpenState st then some 999000 else none }

/-- A door with six changes in the last 30 s, the first of them 29999 ms ago. -/
def chattering (d : Door) : Door := { d with chatter := [970001, 980000, 980001, 980002, 980003, 980004] }

/-- The contact alone: the trailer sensor's change is 1 ms from due. -/
theorem witness_door_contact :
    let alone (d : Door) : Door := { d with trailer := { d.trailer with since := 999501 } }
    let opens (d : Door) : Door :=
      ((after (exec (.doorContactChange 0 true .stable) (withDoor (alone d)))).doors.records[0]?).getD shutDoor
    let shuts (d : Door) : Door := ((after (exec (.doorContactChange 0 false .stable) (withDoor
      (alone { d with contact := { d.contact with raw := false } })))).doors.records[0]?).getD shutDoor
    let fresh := { doorIn .closed none none with settling := true }
    ((withDoor (doorIn .closed (some false) (some false))).doors.records[0]? = some (doorIn .closed (some false) (some false)) ∧
      (doorIn .closed (some false) (some false)).contact.raw = true ∧
      (doorIn .closed (some false) (some false)).contact.level ≠ some true ∧ 999500 + 500 ≤ live.clock) ∧
    (shutDoor.contact.raw ≠ true ∧
      ((after (exec (.doorContactChange 0 true .raw) (withDoor shutDoor))).doors.records[0]?).map Door.contact =
        some (raised (some false) true 1000000)) ∧
    (opens fresh).settling = true ∧ (opens { fresh with trailer := steady true 0 }).state = .openSealed ∧
    (opens (doorIn .fault (some false) (some false))).stableSince = some 1000000 ∧
    (opens (chattering (doorIn .closed (some false) (some false)))).state = .fault ∧
    (opens (doorIn .closed (some false) (some false))).state = .openUnsealed ∧
    (opens (doorIn .closed (some false) (some false))).cycles = 1 ∧
    (shuts (doorIn .held (some true) (some false))).state = .closed ∧
    (shuts (doorIn .closed (some true) (some false))).state = .closed := by decide +kernel

/-- The trailer sensor alone: the contact's change is 1 ms from due. -/
theorem witness_door_trailer :
    let alone (d : Door) : Door := { d with contact := { d.contact with since := 999501 } }
    let comes (d : Door) : Door :=
      ((after (exec (.doorTrailerChange 0 true .stable) (withDoor (alone d)))).doors.records[0]?).getD shutDoor
    let goes (d : Door) : Door := ((after (exec (.doorTrailerChange 0 false .stable) (withDoor
      (alone { d with trailer := { d.trailer with raw := false } })))).doors.records[0]?).getD shutDoor
    let fresh := { doorIn .closed none none with settling := true }
    ((doorIn .held (some true) (some false)).trailer.raw = true ∧
      (doorIn .held (some true) (some false)).trailer.level ≠ some true ∧ 999500 + 500 ≤ live.clock) ∧
    (shutDoor.trailer.raw ≠ true ∧
      ((after (exec (.doorTrailerChange 0 true .raw) (withDoor shutDoor))).doors.records[0]?).map Door.trailer =
        some (raised (some false) true 1000000)) ∧
    (comes fresh).settling = true ∧ (comes { fresh with contact := steady true 0 }).state = .openSealed ∧
    (goes { fresh with contact := steady false 0 }).state = .closed ∧
    (comes (doorIn .fault (some true) (some false))).stableSince = some 1000000 ∧
    (comes (chattering (doorIn .openUnsealed (some true) (some false)))).state = .fault ∧
    (comes (doorIn .held (some true) (some false))).state = .openSealed ∧
    (goes (doorIn .openSealed (some true) (some true))).holdSince = some 1000000 ∧
    (comes (doorIn .closed (some false) (some false))).state = .closed := by decide +kernel

/-- A door that opens as its trailer comes, whichever change is commanded: one event, at whose end the door is OPEN_SEALED with
one cycle and two changes in its window, and no block has seen it open and unsealed (R95). -/
theorem witness_contact_and_trailer :
    let d := doorIn .closed (some false) (some false)
    let s := withDoor d
    let t := after (exec (.doorContactChange 0 true .stable) s)
    (d.contact.level ≠ some d.contact.raw ∧ d.contact.since + 500 ≤ s.clock ∧ d.trailer.level ≠ some d.trailer.raw ∧
      d.trailer.since + 500 ≤ s.clock ∧ d.settling = false) ∧
    t = after (exec (.doorTrailerChange 0 true .stable) s) ∧
    (t.doors.records[0]?).map (fun x => (x.state, x.cycles, x.chatter.length, x.curtainDemanded)) =
      some (.openSealed, 1, 2, false) ∧
    t.doors.boost = false ∧ (t.lighting.docks[0]?).map DockLight.demanded = some true := by decide +kernel

/-- The hold limit of 300 s and the stable time of 120 s, each reached to the millisecond. -/
theorem witness_door_timers :
    let fresh := { doorIn .closed none none with settling := true }
    (fresh.settling = true ∧ isOpenState fresh.state = false ∧ fresh.contact.level = none ∧ fresh.contact.raw = true ∧
      fresh.trailer.level = none ∧ fresh.trailer.raw = true ∧ 999500 + 500 ≤ live.clock) ∧
    ((doorIn .openUnsealed (some true) (some false)).holdSince = some 700000 ∧ 700000 + 300 * 1000 ≤ live.clock) ∧
    ((doorIn .fault (some true) (some false)).stableSince = some 880000 ∧ 880000 + 120000 ≤ live.clock) ∧
    ((after (exec (.doorSettlingEnds 0 true true) (withDoor fresh))).doors.records[0]?).map Door.state = some .openSealed ∧
    ((after (exec (.doorSettlingEnds 0 true false) (withDoor fresh))).doors.records[0]?).map Door.settling = some true ∧
    ((after (exec (.doorHoldExpiry 0) (withDoor (doorIn .openUnsealed (some true) (some false))))).doors.records[0]?).map
      Door.state = some .held ∧
    ((after (exec (.doorFaultClear 0) (withDoor (doorIn .fault (some true) (some true))))).doors.records[0]?).map Door.state =
      some .openSealed := by decide +kernel

/-- The count going from 0 to 1, from 1 to 0 with a recovery time of 90 s and of none, and staying 0; and open time gathered to
the full second, at the limit of the open seconds, and without an open mark. -/
theorem witness_boost_values :
    let d (st : DoorState) (n : Nat) (boost : Bool) : Doors := { live.doors with
      records := [doorIn st (some true) (some false)], openUnsealed := n, boost := boost }
    let outcome (x : Doors) : Nat × Bool × Option Nat := (x.openUnsealed, x.boost, x.recoveryDue)
    [settleBoost 500 90 (d .held 0 false), settleBoost 500 90 (d .openSealed 1 true), settleBoost 500 0 (d .closed 1 true),
      settleBoost 500 90 (d .fault 0 false)].map outcome = [(1, true, none), (0, true, some 90500), (0, false, none),
      (0, false, none)] ∧
    (let r : Door := { doorIn .held (some true) (some false) with
        openMark := some 1000, remainder := 999, openSeconds := 4294967294 };
      ((gatherOpen 1001 r).openSeconds, (gatherOpen 1001 r).remainder) = (4294967295, 0) ∧
      (gatherOpen 9000 r).openSeconds = 4294967295 ∧ gatherOpen 9000 { r with openMark := none } = { r with openMark := none }) := by
  decide +kernel

theorem witness_boost_open_seconds :
    let s : State := live.setDoors { live.doors with boost := true, recoveryDue := some 1000000 }
    (s.doors.recoveryDue = some 1000000 ∧ 1000000 ≤ s.clock) ∧
    ((doorIn .held (some true) (some false)).openMark = some 999000 ∧ (0 : Nat) ≤ 1000 ∧ 999000 ≤ live.clock ∧
      1000 ≤ 0 + (live.clock - 999000)) ∧
    (after (exec .boostRecoveryExpiry s)).doors.boost = false ∧
    ((after (exec (.openSecondsAdvance 0) (withDoor (doorIn .held (some true) (some false))))).doors.records[0]?).map
      Door.openSeconds = some 1 := by decide +kernel

/-! ## Witnesses: heat, air, loads -/

/-- Readings at and past the bounds of the fault test. -/
theorem witness_temperature :
    live.start.running = true ∧ live.heat.nextReading ≤ live.clock ∧
    (after (exec (.temperatureReading (some 49)) live)).heat.freeze = true ∧
    (after (exec (.temperatureReading (some 600)) live)).heat.overheat = true ∧
    (after (exec (.temperatureReading (some (-400))) live)).heat.fault = false ∧
    (after (exec (.temperatureReading (some 601)) live)).heat.fault = true ∧
    (after (exec (.temperatureReading none) live)).heat.fault = true := by decide +kernel

/-- An adoption to a page whose unoccupied setpoint is 80 and whose CHANGEOVER entry sets 145, at T = 150 and with hysteresis
10: the page's own S_eff clears the calls, and the entry's leaves them clear (R50, R111, R112). -/
theorem test_page_before_changeover :
    let page : Page := { Page.builtIn 0 with occupied := 145, unoccupied := 80, changeover := 60 }
    let s : State := { hearing with
      start := { live.start with config := { site with pages := [Page.builtIn 0, page, page, page] } }
      heat := { live.heat with
        last := some 150, setpoint := 160, effective := 160
        stages := live.heat.stages.map fun st => { st with call := true, demand := .called, tier := some 3 } } }
    (after (exec (.shiftReceived 9 #v[71, 1]) s)).heat.effective = 145 ∧
    (after (exec (.shiftReceived 9 #v[71, 1]) s)).heat.stages.map Stage.call = [false, false] ∧
    judgeCall s.start.config.heat 0 (145 - 150) true = true := by decide +kernel

/-- A VACANT bay at standby level 80 adopts a page of standby level 10 with a CHANGEOVER level of 60: the light falls to 10 as the
page is reported, and rises to 60 from there (R42, R82, R84 to R86). -/
theorem test_page_cut_before_changeover :
    let page : Page := { Page.builtIn 0 with standby := List.replicate 4 10, changeover := 60, changeoverLevel := 60 }
    let lit : Channel :=
      { desired := 80, tier := some 3, granted := 80, target := 80, present := 80, rise := none }
    let s : State := { hearing with
      start := { live.start with config := { site with
        pages := [Page.builtIn 0, page, page, page]
        lighting := { site.lighting with channels := List.replicate 4 { rated := 30, mode := .follow } } } }
      lighting := { live.lighting with channels := List.replicate 4 lit } }
    (reformChannels { s with shift := { s.shift with page := 1 } }).lighting.channels.map Channel.present =
      List.replicate 4 10 ∧
    (after (exec (.shiftReceived 9 #v[71, 1]) s)).lighting.channels.map (fun c => (c.present, c.target, c.rise)) =
      List.replicate 4 (10, 60, some (10, 1000000)) := by decide +kernel

/-- The station alone, occupied and cold: a WORKING page calls for 200, and the other pages are IDLE with 80, their changeover
entries with 200 again. -/
def coldWork : State :=
  let page (c : PageClass) (unoccupied : Int) : Page := { Page.builtIn 0 with
    pageClass := c, occupied := 200, unoccupied := unoccupied, changeover := 60, changeoverLevel := 100 }
  let s : State := withLine (fun l => { l with engine := .receive })
    (withView (fun v => { v with link := .isolated, listenDue := none }) { live with
      start := { live.start with config := { site with pages := page .working 200 :: List.replicate 3 (page .idle 80) } }
      traffic := { live.traffic with zones := live.traffic.zones.set 0 { asserted := true, releasedAt := none } }
      heat := { live.heat with last := some 100 } })
  finish s .recompute s

/-- The demand, tier and grant of stage 1. -/
def stage1 (s : State) : Option (StageDemand × Option Tier × Bool) :=
  (s.heat.stages[0]?).map fun st => (st.demand, st.tier, st.granted)

/-- An adoption whose page clears a stage's call and whose CHANGEOVER entry calls it again at the same tier: the record stands at
the end of the event, and its grant with it (R114, R154). -/
theorem test_grant_through_changeover :
    stage1 coldWork = some (.called, some 2, true) ∧
    stage1 (reformHeat { coldWork with shift := { coldWork.shift with page := 1 } }) = some (.none, none, true) ∧
    demandRecords (after (exec (.shiftReceived 9 #v[71, 1]) coldWork)) = demandRecords coldWork ∧
    stage1 (after (exec (.shiftReceived 9 #v[71, 1]) coldWork)) = some (.called, some 2, true) := by decide +kernel

/-- The station alone on a share of 320, its temperature monitor in fault, stage 1 called at tier 2, granted, and OFF since
820000. -/
def faulted : State :=
  let s : State := withView (fun v => { v with link := .isolated, listenDue := none }) { live with
    clock := 999999
    start := { live.start with config := { site with header := { site.header with cap := 8 * 320 } } }
    heat := { live.heat with fault := true, stages := List.replicate 2 (freshStage 820000) } }
  finish s .recompute s

/-- A reading at the moment the min-off time elapses: the stage is energised in step 4, and cut by the publication, which puts
it in tier 3 behind the lighting (R106, R116). -/
theorem test_energised_then_cut :
    let s : State := { faulted with clock := 1000000 }
    s.heat.stages[0]? =
      some { on := false, since := 820000, call := false, demand := .called, tier := some 2, granted := true } ∧
    820000 + 180 * 1000 ≤ s.clock ∧
    stageCall (isWorking s) false { s.heat with fault := false } 0 true = .called 3 ∧
    ((readTemperature (some 60) s).heat.stages[0]?).map Stage.on = some true ∧
    (after (exec (.temperatureReading (some 60)) s)).heat.stages[0]? =
      some { on := false, since := 1000000, call := true, demand := .called, tier := some 3, granted := false } := by
  decide +kernel

/-- The station alone and cold: ISOLATED with a share of 1000, its stages called and granted, within their min-off times. -/
def cold : State :=
  let s : State := withView (fun v => { v with link := .isolated, listenDue := none })
    { live with heat := { live.heat with last := some 60 } }
  finish s .recompute s

theorem cold_demandsOk : DemandsOk cold := finish_demands _ _ _

/-- Both stages of 300 go ON in one event: P is 600 at its end, and the peak P accumulator takes it where it is above it (R54,
R156). -/
theorem test_peak_at_switching :
    let peak (old : Nat) := (after (exec (.stageMinOffExpiry 1) { cold with
      clock := 1179000, shift := { cold.shift with peak := old } })).shift.peak
    peak 599 = 600 ∧ peak 601 = 601 := by decide +kernel

/-- Stage 2 of that station at the end of its min-off time; and the same stage ON and released at the end of its min-on
time, with a reading above every threshold. -/
theorem witness_stage_times :
    let s : State := { cold with clock := 1179000 }
    let st : Stage := { on := false, since := 999000, call := true, demand := .called, tier := some 3, granted := true }
    let hot : State := { cold with clock := 1200000, heat := { cold.heat with
      last := some 300, stages := List.replicate 2
        { on := true, since := 1080000, call := false, demand := .holding, tier := some 3, granted := true } } }
    s.start.running = true ∧ s.start.config.heat.stages[1]? = some { rated := 300, minOn := 120, minOff := 180 } ∧
    (∀ x ∈ s.start.config.heat.stages, 0 < x.minOff) ∧ s.heat.stages[1]? = some st ∧ 999000 + 180 * 1000 ≤ s.clock ∧
    publish s s = s ∧ (∀ x ∈ s.heat.stages, x.demand ≠ .holding) ∧
    ((after (exec (.stageMinOffExpiry 1) s)).heat.stages[1]?).map Stage.on = some true ∧
    (hot.heat.stages[1]?).map Stage.demand = some .holding ∧ 1080000 + 120 * 1000 ≤ hot.clock ∧
    ((after (exec (.stageMinOnExpiry 1) hot)).heat.stages[1]?).map Stage.on = some false := by decide +kernel

/-- The conditions of Table 37 by their numbers, and the latched flags: condition 0 becomes active and latches, condition 4 stays
latched after it ended, condition 13 is in COMPARATOR mode, condition 15 was active before (R149). -/
theorem test_alarm_conditions :
    let s : State := { live with
      start := { live.start with config := { site with lighting := { site.lighting with
        channels := [.follow, .follow, .offForced, .follow].map fun m => { rated := 30, mode := m } } } }
      line := { live.line with lineFault := true }
      view := { live.view with causes := { live.view.causes with strapRange := true } }
      air := { live.air with gasClass := .critical, no2 := { live.air.no2 with fault := true } }
      alloc := { live.alloc with capExceeded := true } }
    let a := updateAlarms 0xFFFB (packFlags (alarmCauses s)) { active := 0x0001, latched := 0x0800 }
    (List.range 16).filter (conditionSet a.active) = [0, 1, 7, 9, 13, 14, 15] ∧
    (List.range 16).filter (conditionSet a.latched) = [0, 1, 4, 7, 9, 14] := by decide +kernel

/-- The fourth CO sample at the action level, the one at full scale, the one above it, and the open circuit. -/
theorem witness_gas :
    let s : State := live.setAir { live.air with co := { live.air.co with action := { asserted := false, run := 3 } } }
    (s.air.co.nextSample ≤ s.clock ∧ 35 ≤ s.start.config.air.co.fullScale) ∧
    (after (exec (.gasSample .co (some 35)) s)).air.gasClass = .action ∧
    (after (exec (.gasSample .co (some 34)) s)).air.co.action.run = 0 ∧
    (after (exec (.gasSample .co (some 500)) s)).air.co.fault = false ∧
    (after (exec (.gasSample .co (some 501)) s)).air.co.fault = true ∧
    (after (exec (.gasSample .no2 none) s)).air.no2.last = .faulty := by decide +kernel

/-- Tier 2 of Table 39 does not fit the 2318 that tier 1 leaves: 300 and 600 are granted in full, 904 and 1200 get 709 each; and
tier 1 fits, at its bound too. -/
theorem witness_water_fill :
    let requests (t : Tier) : List Nat := (table39.map (Standing.request t)).filter fun q => decide (0 < q)
    (requests 1).sum = 866 ∧ 866 ≤ 4000 - (reserveSum table39 + tierZeroDemand table39) ∧
    (([300, 600] ++ 904 :: [1200]).Perm (requests 2) ∧ ([300, 600] ++ 904 :: [1200]).Pairwise (· ≤ ·) ∧
      2318 < (requests 2).sum ∧ 0 + 300 * (1 + 1 + (1 + 1)) ≤ 2318 ∧ 300 + 600 * (0 + 1 + (1 + 1)) ≤ 2318 ∧
      2318 < 900 + 904 * (1 + 1)) ∧
    (shedComputation 4000 table39).fill2.map Prod.snd = [300, 600, 709, 709] ∧
    (shedComputation 1682 table39).fill1.map Prod.snd = [166, 150, 300, 250] ∧
    (shedComputation 1681 table39).fill1.map Prod.snd = [150, 166, 250, 299] := by decide +kernel

/-- Every row of R158, with a last P above the isolated share of 1000, and the allowance of R37 for sets of silent causes. -/
theorem witness_standings :
    let e (st : EntryState) (link : LinkState) : PeerEntry :=
      { heardEntry st 999000 with beacon := some { beaconOf (beacon 1) with link := link, draw := 1200 } }
    let s := withView (fun v => { v with
      entries := [e .fresh .joined, e .stale .listen, e .lost .joined, PeerEntry.empty] ++ v.entries.drop 4 }) live
    let silent (duplicate timebase defaulted strapRange : Bool) : State := withView (fun v => { v with
      link := .silent, causes := { duplicate := duplicate, timebase := timebase, defaulted := defaulted, strapRange := strapRange } }) live
    (standings s).take 6 = [.counted (beaconOf (beacon 1)).requests, .reserved 1200, .reserved 1200, .reserved 1000,
      .reserved 1000, .counted s.alloc.requests] ∧
    [live, silent true false false false, silent true false true false, silent false false true false,
      silent false true true true].map allowance = [1000, 1000, 100, 100, 0] := by decide +kernel

/-- JOINED, with a beacon of station 4 to come. -/
def joinedHearing : State := withView (fun v => { v with link := .joined, listenDue := none }) hearing

/-- The five kinds of event that recompute: a beacon, a change of the link state, of an entry, of a record and of the term. -/
theorem witness_grants_formed :
    let old : State := withEntry (heardEntry .fresh 997000) (withView (fun v => { v with link := .joined }) live)
    let metered : State := live.setAlloc { live.alloc with newest := some 1000000, previous := some 994000, excessRun := 9 }
    (joinedHearing.start.running = true ∧ joinedHearing.line.engine = .receive ∧ (4 : Station).toNat < 32 ∧
      (4 : Station).toNat < joinedHearing.start.config.header.nCfg ∧ (4 : Station).toNat ≠ joinedHearing.start.strapped ∧
      (after (exec (.beaconReceived 4 (beacon 3)) joinedHearing)).start.running = true ∧
      (after (exec (.beaconReceived 4 (beacon 3)) joinedHearing)).alloc.pendingDue = some 1001000) ∧
    (after (exec .listenTimerExpiry live)).view.link ≠ live.view.link ∧
    (after (exec (.entryStale 4) old)).view.entries.map PeerEntry.state ≠ old.view.entries.map PeerEntry.state ∧
    demandRecords (after (exec (.doorContactChange 0 true .stable) (withDoor (doorIn .closed (some false) (some false))))) ≠
      demandRecords (withDoor (doorIn .closed (some false) (some false))) ∧
    (after (exec .meterCheck metered)).alloc.term ≠ metered.alloc.term := by decide +kernel

/-- A stage that goes ON in an event without a change of its record: the grants stand while the settle delay runs, with computed
grants above the applied ones; and a settle delay's end one millisecond early does nothing. -/
theorem witness_grants_stand :
    let raised : State := { cold with clock := 1179000, alloc := { cold.alloc with
      computed := { cold.alloc.computed with g1 := cold.alloc.computed.g1 + 7 }, pendingDue := some 1179001 } }
    let t := after (exec (.stageMinOffExpiry 1) raised)
    (raised.start.running = true ∧ t.start.running = true ∧ DemandsOk raised ∧ raised.clock < 1179001 ∧
      t.view.link = raised.view.link ∧ demandRecords t = demandRecords raised ∧ t.alloc.term = raised.alloc.term ∧
      t.view.entries.map PeerEntry.state = raised.view.entries.map PeerEntry.state) ∧
    t.alloc.energised ≠ raised.alloc.energised ∧ t.alloc.applied ≠ t.alloc.computed ∧ t.alloc.pendingDue = some 1179001 ∧
    after (exec .pendingIncreaseExpiry raised) = raised := by
  refine ⟨⟨by decide +kernel, by decide +kernel, { cold_demandsOk with }, by decide +kernel, by decide +kernel,
    by decide +kernel, by decide +kernel, by decide +kernel⟩, ?_, ?_, ?_, ?_⟩ <;> decide +kernel

/-- A settle delay that ends at the moment a HOLDING stage's min-on time elapses: its record goes. -/
theorem witness_pending_increase_record :
    let s : State := { cold with
      clock := 1200000, alloc := { cold.alloc with pendingDue := some 1200000 }
      heat := { cold.heat with
        last := some 300, stages := List.replicate 2
          { on := true, since := 1080000, call := false, demand := .holding, tier := some 3, granted := true } } }
    s.start.running = true ∧ s.alloc.pendingDue = some 1200000 ∧ 1200000 ≤ s.clock ∧
    demandRecords (after (exec .pendingIncreaseExpiry s)) ≠ demandRecords s := by decide +kernel

/-- The station at rest with a settle delay that ends now. -/
def settling : State := { rest with alloc := { rest.alloc with
  computed := { rest.alloc.computed with g2 := 7 }, pendingDue := some 1000000 } }

theorem settling_demandsOk : DemandsOk settling :=
  { finish_demands live .recompute live with }

/-- A settle delay that ends where the demand records stand. -/
theorem witness_pending_increase :
    settling.start.running = true ∧ settling.alloc.pendingDue = some 1000000 ∧ 1000000 ≤ settling.clock ∧
    DemandsOk settling ∧ ShapeOk settling ∧
    demandRecords (after (exec .pendingIncreaseExpiry settling)) = demandRecords settling ∧
    (after (exec .pendingIncreaseExpiry settling)).alloc.applied.g2 = 7 := by
  refine ⟨by decide +kernel, by decide +kernel, by decide +kernel, settling_demandsOk, by constructor <;> decide +kernel, ?_, ?_⟩ <;>
    decide +kernel

/-- A pulse 19 ms and one 20 ms after the last one to the millisecond, and each of the six outcomes of a check. -/
theorem witness_meter :
    let s (measured excess clear : Nat) (unaccounted : Bool) : State := live.setAlloc { live.alloc with
      newest := some 1000000, previous := some (1000000 - 360000 / measured), excessRun := excess, clearRun := clear
      unaccounted := unaccounted }
    let pulsed : State := live.setAlloc { live.alloc with newest := some 999980 }
    (pulsed.alloc.newest = some 999980 ∧ 999980 + 20 ≤ pulsed.clock) ∧
    after (exec .meterPulse (live.setAlloc { live.alloc with newest := some 999981 })) =
      live.setAlloc { live.alloc with newest := some 999981 } ∧
    (after (exec .meterPulse pulsed)).shift.energy = 10 ∧ (after (exec .meterPulse pulsed)).alloc.measured = 18000 ∧
    live.alloc.nextCheck ≤ live.clock ∧
    (after (exec .meterCheck (s 50 4 0 false))).alloc.excessRun = 0 ∧
    (after (exec .meterCheck (s 60 8 0 false))).alloc.excessRun = 9 ∧
    (after (exec .meterCheck (s 60 9 0 false))).alloc.unaccounted = true ∧
    (after (exec .meterCheck (s 60 0 3 true))).alloc.clearRun = 0 ∧
    (after (exec .meterCheck (s 50 0 8 true))).alloc.clearRun = 9 ∧
    (after (exec .meterCheck (s 50 0 9 true))).alloc.unaccounted = false := by decide +kernel

/-! ## Witnesses: invariants -/

theorem site_configOk : ConfigOk site := by constructor <;> decide +kernel

theorem live_shapeOk : ShapeOk live := by constructor <;> decide +kernel

/-- The station at rest with a pulse waiting. -/
def busy : State := { live with pending := [.meterPulse] }

/-- The same with the end of an event behind it. -/
def busyRest : State := finish busy .recompute busy

theorem busyRest_pending : busyRest.pending = [.meterPulse] := by decide +kernel

theorem busyRest_steps : ∃ t, Machine.step busyRest = .next t := by
  rw [Machine.step, busyRest_pending]
  exact ⟨_, rfl⟩

theorem witness_line_invariants : LinkOk busyRest ∧ QueueOk busyRest ∧ ∃ t, Machine.step busyRest = .next t := by
  refine ⟨by constructor <;> decide +kernel, ?_, busyRest_steps⟩
  have h : busyRest.line.queue = [slot (.alarm busyRest.alarms.active busyRest.alarms.latched)] ∨ busyRest.line.queue = [] := by
    decide +kernel
  constructor
  · decide +kernel
  · intro k _
    rcases h with h | h <;> rw [h]
    · exact List.countP_le_length
    · exact Nat.zero_le _
  · decide +kernel
  · decide +kernel
  · rcases h with h | h <;> rw [h] <;> simp [slot]
  · decide +kernel
  · decide +kernel

theorem witness_unit_invariants :
    ConfigOk busyRest.start.config ∧ ShapeOk busyRest ∧ StacksOk busyRest ∧ TrafficOk busyRest ∧ DoorsOk busyRest ∧
      HeatOk busyRest ∧ AlarmsOk busyRest ∧ ∃ t, Machine.step busyRest = .next t := by
  refine ⟨?_, by constructor <;> decide +kernel, by constructor <;> constructor <;> decide +kernel,
    by constructor <;> decide +kernel, by constructor <;> decide +kernel, by constructor <;> decide +kernel,
    by constructor <;> decide +kernel, busyRest_steps⟩
  rw [show busyRest.start.config = site from by decide +kernel]
  exact site_configOk

theorem witness_load_invariants :
    busyRest.start.running = true ∧ DemandsOk busyRest ∧ GrantsOk busyRest ∧ OutputsOk busyRest ∧ RequestsOk busyRest ∧
      BudgetOk busyRest ∧ FittedOk busyRest ∧ ∃ t, Machine.step busyRest = .next t := by
  refine ⟨by decide +kernel, ?_, by constructor <;> decide +kernel, ?_, ?_, by constructor <;> decide +kernel, ?_, busyRest_steps⟩
  · exact finish_demands _ _ _
  · constructor
    · unfold ChannelOk; decide +kernel
    · decide +kernel
    · decide +kernel
    · decide +kernel
    · unfold FanOk; decide +kernel
    · unfold FanOk; decide +kernel
  · unfold RequestsOk; decide +kernel
  · refine finish_fitted busy .recompute busy (by constructor <;> decide +kernel) (by decide +kernel) fun h => ?_
    unfold workFor at h
    split at h <;> exact nomatch h

/-- The station with the end of an event behind it, as `f` changes it: its demands are those of the tables. -/
def settled (f : State → State) : State := finish (f live) .recompute (f live)

theorem settled_demandsOk (f : State → State) : DemandsOk (settled f) := finish_demands _ _ _

/-- Every row of Table 17: the two forced modes, each bay lighting state, and a ruling entry of each source kind. -/
theorem witness_table17 :
    let page : Page := { Page.builtIn 0 with work := [10, 20, 30, 40], standby := [1, 2, 3, 4] }
    let chosen (bay : BayState) (light : List OverrideEntry) (zone : Bool) : List (Nat × Option Tier) :=
      (settled fun s => { s with
        start := { s.start with config := { site with
          pages := List.replicate 4 page
          lighting := { site.lighting with
            channels := [.offForced, .fullForced, .follow, .followInverted].map fun m => { rated := 30, mode := m } } } }
        lighting := { s.lighting with bay := bay }
        traffic := { s.traffic with zones := s.traffic.zones.set 0 { asserted := zone, releasedAt := none } }
        overrides := { s.overrides with light := light } }).lighting.channels.map fun c => (c.desired, c.tier)
    chosen .vacant [] false = [(0, none), (100, some 0), (3, some 3), (4, some 3)] ∧
    chosen .leadIn [] false = [(0, none), (100, some 0), (30, some 2), (40, some 2)] ∧
    chosen .vacating [] false = [(0, none), (100, some 0), (30, some 2), (40, some 2)] ∧
    chosen .occupied [] true = [(0, none), (100, some 0), (30, some 1), (40, some 1)] ∧
    chosen .vacant [manualEntry] false = [(0, none), (100, some 0), (100, some 1), (100, some 1)] ∧
    chosen .occupied [co, tool 40 3 (.level 5 0x7) none] true = [(0, none), (100, some 0), (5, some 2), (50, some 1)] := by
  decide +kernel

/-- Demand, tier and switch of both stages at the end of an event, for the monitor's flags, a reading, the HEAT stack and the
class of every page. -/
def stageRows (fault freeze overheat on : Bool) (last : Option Int) (rule : List OverrideEntry) (c : PageClass) :
    List (StageDemand × Option Tier × Bool) :=
  (settled fun s => { s with
    start := { s.start with config := { site with
      header := { site.header with cap := 65535 }, pages := List.replicate 4 { Page.builtIn 0 with pageClass := c } } }
    heat := { s.heat with
      fault := fault, freeze := freeze, overheat := overheat, last := last
      stages := List.replicate 2 { on := on, since := 999000, call := false, demand := .none, tier := none, granted := on } }
    overrides := { s.overrides with heat := rule } }).heat.stages.map fun st => (st.demand, st.tier, st.on)

/-- Every row of Table 25, for stage 1 and for stage 2. -/
theorem witness_table25 :
    [stageRows true false false true none [tool 40 3 .hold none] .working, stageRows true false false true none [] .working,
      stageRows true false false true none [] .idle, stageRows false false true true (some 400) [] .working,
      stageRows false true false false (some 20) [tool 40 3 .hold none] .working,
      stageRows false false false false (some 60) [] .working,
      stageRows false false false false (some 60) [tool 40 3 (.setpoint 200) none] .idle,
      stageRows false false false true (some 300) [] .working] =
    [[(.none, none, false), (.none, none, false)], [(.called, some 2, true), (.holding, some 3, true)],
      [(.holding, some 3, true), (.holding, some 3, true)], [(.none, none, false), (.none, none, false)],
      [(.called, some 0, false), (.none, none, false)], [(.called, some 3, false), (.called, some 3, false)],
      [(.called, some 2, false), (.called, some 2, false)], [(.holding, some 3, true), (.holding, some 3, true)]] := by
  decide +kernel

/-- The air unit at the end of an event, for the gas class, the VENT stack, the page minimum, the balancing flow and the entry
of the upper neighbour, whose summary shows GAS_CRITICAL. -/
def settledAir (link : LinkState) (gas : GasClass) (vent : List OverrideEntry) (minVent : Nat) (balancing : Int)
    (neighbour : EntryState) : Air :=
  (settled fun s => { s with
    start := { s.start with config := { site with
      pages := List.replicate 4 { Page.builtIn 0 with minVent := minVent }
      air := { site.air with actionSpeed := 60, assistSpeed := 45 } } }
    view := { s.view with
      link := link, listenDue := none
      entries := s.view.entries.set 6 { heardEntry neighbour 999999 with alarms := some 0x8000 } }
    air := { s.air with gasClass := gas, balancing := balancing }
    overrides := { s.overrides with vent := vent } }).air

/-- Source, direction, speed and tier of both fans at the end of an event in JOINED. -/
def fanRows (gas : GasClass) (vent : List OverrideEntry) (minVent : Nat) (balancing : Int) (neighbour : EntryState) :
    List (FanSource × AirDir × Nat × Option Tier) :=
  let air := settledAir .joined gas vent minVent balancing neighbour
  [air.fan1, air.fan2].map fun f => (f.source, f.requested, f.desired, f.tier)

/-- Every row of Table 31, for both fans. -/
theorem witness_table31 :
    [fanRows .critical [tool 40 3 (.purge .supply 30) none] 20 63 .absent,
      fanRows .action [tool 40 3 (.purge .supply 30) none] 20 63 .absent,
      fanRows .none [tool 40 3 (.purge .exhaust 30) none] 20 63 .fresh, fanRows .none [tool 40 3 .stop none] 20 63 .stale,
      fanRows .none [tool 40 3 (.purge .exhaust 0) none] 20 63 .lost, fanRows .none [] 20 (-63) .absent,
      fanRows .none [] 0 4 .absent] =
    [[(.critical, .exhaust, 100, some 0), (.critical, .exhaust, 100, some 0)],
      [(.action, .exhaust, 60, some 1), (.vent, .supply, 30, some 1)],
      [(.vent, .exhaust, 30, some 1), (.vent, .exhaust, 30, some 1)],
      [(.vent, .supply, 0, none), (.assist, .supply, 45, some 1)], [(.vent, .supply, 0, none), (.vent, .supply, 0, none)],
      [(.minimum, .exhaust, 20, some 2), (.balancing, .exhaust, 60, some 3)],
      [(.none, .supply, 0, none), (.none, .supply, 0, none)]] := by decide +kernel

/-- The balancing flow stands at the end of an event in JOINED while balancing, or no source, has fan 2; each other source of
fan 2, and another link state, sets it to 0 (R132). -/
theorem test_balancing_flow :
    [settledAir .joined .none [] 0 63 .absent, settledAir .joined .none [] 0 4 .absent, settledAir .joined .action [] 0 63 .absent,
      settledAir .joined .critical [] 0 63 .absent, settledAir .joined .none [tool 40 3 .stop none] 0 63 .absent,
      settledAir .joined .none [] 0 63 .fresh, settledAir .isolated .none [] 0 63 .absent].map Air.balancing =
    [63, 4, 63, 0, 0, 0, 0] := by decide +kernel

/-- The field outputs of a running station: a duty by each mode, a fan drive in each direction and none at speed 0, and the
attention pin at both levels of its polarity. -/
theorem witness_outputs :
    let s : State := { live with
      start := { live.start with config := { site with lighting := { site.lighting with
        channels := [.offForced, .fullForced, .follow, .followInverted].map fun m => { rated := 30, mode := m } } } }
      lighting := { live.lighting with channels := live.lighting.channels.map fun c => { c with present := 80 } }
      air := { live.air with
        fan1 := { live.air.fan1 with state := .running, direction := some .exhaust, present := 40 } }
      alarms := { active := 0, latched := 0x0001 } }
    s.start.running = true ∧ lightingDuties s = [0, 80, 80, 20] ∧ fanDrive s s.air.fan1 = some (.exhaust, 40) ∧
    fanDrive s s.air.fan2 = none ∧ attentionPin s = some true ∧
    attentionPin { s with alarms := { active := 0, latched := 0 } } = some false := by decide +kernel

theorem witness_epoch :
    ∃ t, exec (.shiftReceived 9 #v[71, 2]) (at_ (some 200) 1 hearing) = .next t ∧
      (Instr.shiftReceived 9 #v[71, 2]) ≠ .powerOnReset ∧ ∀ r, (Instr.shiftReceived 9 #v[71, 2]) ≠ .startSequenceEnd r :=
  ⟨_, rfl, nofun, fun _ => nofun⟩

end Sys2Proof.Tests
end

section
/-! SUPPORT. The line engine's operations, rule by rule (spec 01): the idle count, the transmit queue around the slot in
flight, and what its commands leave of it. -/

namespace Sys2Proof.Machine

/-! ## The idle count -/

/-- The idle count follows levels that reach 12 with the last of them, or not at all (R3). -/
theorem huntBits_eq_idleAfter (count : Nat) (bits : List Bool)
    (h : ∀ k, 1 ≤ k → k < bits.length → idleAfter count (bits.take k) ≠ 12) :
    huntBits count bits = some (idleAfter count bits) := by
  induction bits generalizing count with
  | nil => rfl
  | cons b bs ih =>
    have hstop : ¬(idleStep count b = 12 ∧ bs ≠ []) := by
      rintro ⟨h12, hne⟩
      have hlen : 1 < (b :: bs).length := by simp [List.length_pos_iff.mpr hne]
      exact h 1 le_rfl hlen h12
    have hnext : huntBits (idleStep count b) bs = some (idleAfter (idleStep count b) bs) :=
      ih _ fun k _ hk => h (k + 1) (by omega) (by simpa using hk)
    rw [huntBits, if_neg hstop, hnext]
    rfl

/-! ## Slots in flight -/

/-- A slot is in flight exactly while it has a payload on the line. -/
theorem inFlight_eq_true_iff (x : Slot) : x.inFlight = true ↔ x.sending ≠ none := by
  simp [Slot.inFlight, Option.ne_none_iff_isSome]

theorem inFlight_eq_false_iff (x : Slot) : x.inFlight = false ↔ x.sending = none := by
  simp [Slot.inFlight]

/-- A slot holds an item of a kind exactly where that is its content's kind. -/
@[simp] theorem isKind_iff (k : Nat) (x : Slot) : Slot.isKind k x = true ↔ kindOf x.content = k := by
  simp [Slot.isKind]

@[simp] theorem waiting_inFlight (b : Bulletin) : (Slot.waiting b).inFlight = false := rfl

@[simp] theorem waiting_content (b : Bulletin) : (Slot.waiting b).content = b := rfl

@[simp] theorem waiting_renewed (b : Bulletin) : (Slot.waiting b).renewed = none := rfl

theorem returnSlot_of_waiting {x : Slot} (h : x.sending = none) : returnSlot x = x := by
  simp [returnSlot, (inFlight_eq_false_iff x).mpr h]

theorem returnSlot_of_inFlight {x : Slot} (h : x.inFlight = true) :
    returnSlot x = Slot.waiting (x.renewed.getD x.content) := if_pos h

theorem completeSlot_of_waiting {x : Slot} (h : x.sending = none) : completeSlot x = some x := by
  simp [completeSlot, (inFlight_eq_false_iff x).mpr h]

section OneInFlight

variable {pre post : List Slot} {x : Slot} (hrest : ∀ y ∈ pre ++ post, y.sending = none)

include hrest

/-- The slot in flight is found wherever it stands in the queue. -/
theorem inFlightSlot_split (hx : x.inFlight = true) : inFlightSlot (pre ++ x :: post) = some x := by
  have hpre : pre.find? Slot.inFlight = none := by
    simpa [inFlight_eq_false_iff] using fun y hy => hrest y (by simp [hy])
  rw [inFlightSlot, List.find?_append, hpre, List.find?_cons_of_pos hx]
  rfl

/-- Only the slot in flight returns; the others wait already (R6, R7). -/
theorem map_returnSlot_split (hx : x.inFlight = true) :
    (pre ++ x :: post).map returnSlot = pre ++ Slot.waiting (x.renewed.getD x.content) :: post := by
  have hwait : ∀ l : List Slot, (∀ y ∈ l, y.sending = none) → l.map returnSlot = l := fun l hl =>
    (List.map_congr_left fun y hy => returnSlot_of_waiting (hl y hy)).trans (List.map_id l)
  rw [List.map_append, List.map_cons, returnSlot_of_inFlight hx, hwait pre fun y hy => hrest y (by simp [hy]),
    hwait post fun y hy => hrest y (by simp [hy])]

/-- Only the slot in flight is completed: it is gone, or waits with what renewed it (R8). -/
theorem filterMap_completeSlot_split :
    (pre ++ x :: post).filterMap completeSlot = pre ++ (completeSlot x).toList ++ post := by
  have hwait : ∀ l : List Slot, (∀ y ∈ l, y.sending = none) → l.filterMap completeSlot = l := fun l hl =>
    (List.filterMap_congr fun y hy => completeSlot_of_waiting (hl y hy)).trans List.filterMap_some
  rw [List.filterMap_append, List.filterMap_cons, hwait pre fun y hy => hrest y (by simp [hy]),
    hwait post fun y hy => hrest y (by simp [hy])]
  cases completeSlot x <;> simp

end OneInFlight

/-! ## The item of an attempt -/

section Attempt

variable {pre post : List Slot} {x : Slot} (hpre : ∀ y ∈ pre, kindOf x.content < kindOf y.content)

include hpre

/-- The item of the lowest kind code, the earliest of its kind, is the one an attempt sends (R16). -/
theorem chosenSlot_split (hpost : ∀ y ∈ post, kindOf x.content ≤ kindOf y.content) :
    chosenSlot (pre ++ x :: post) = some x := by
  have hlow : lowestKind (pre ++ x :: post) = some (kindOf x.content) := by
    rw [lowestKind, List.min?_eq_some_iff]
    refine ⟨by simp, fun k hk => ?_⟩
    simp only [List.map_append, List.map_cons, List.mem_append, List.mem_cons, List.mem_map] at hk
    rcases hk with ⟨y, hy, rfl⟩ | rfl | ⟨y, hy, rfl⟩
    · exact (hpre y hy).le
    · exact le_rfl
    · exact hpost y hy
  have hfirst : pre.find? (Slot.isKind (kindOf x.content)) = none := by
    rw [List.find?_eq_none]
    intro y hy
    simpa using (hpre y hy).ne'
  rw [chosenSlot, hlow, Option.bind_some, List.find?_append, hfirst, List.find?_cons_of_pos (by simp)]
  rfl

/-- The earliest item of its kind is marked in flight, and no other (R5). -/
theorem markInFlight_split (p : List Byte) :
    markInFlight (kindOf x.content) p (pre ++ x :: post) = pre ++ { x with sending := some p } :: post := by
  induction pre with
  | nil => simp [markInFlight]
  | cons y ys ih =>
    have hy : Slot.isKind (kindOf x.content) y = false := by
      simpa [Slot.isKind] using (hpre y (by simp)).ne'
    simp [markInFlight, hy, ih fun z hz => hpre z (by simp [hz])]

end Attempt

/-! ## The bytes of a payload -/

/-- A two-byte field and the number it spells have the same bytes (R181). -/
theorem halfBytes_eq_bytes16 (h : Half) : halfBytes h = bytes16 h.toNat := by
  have hlow : h.extractLsb' 0 8 = byteOf h.toNat := by
    apply BitVec.eq_of_toNat_eq
    simp [byteOf]
  have hhigh : h.extractLsb' 8 8 = byteOf (h.toNat / 256) := by
    apply BitVec.eq_of_toNat_eq
    simp [byteOf, Nat.shiftRight_eq_div_pow]
  rw [halfBytes, bytes16, hlow, hhigh]

/-- A signed field in two's complement (R181). -/
theorem signedBytes_eq_bytes16 (i : Int) : signedBytes i = bytes16 (i % 65536).toNat := by
  rw [signedBytes, halfBytes_eq_bytes16, BitVec.toNat_ofInt]
  rfl

end Sys2Proof.Machine
end

section
/-! SUPPORT. A frame round the line: what a sender stuffs, a receiver takes in bit by bit and accepts (R2, R4, R9, R10). -/

namespace Sys2Proof.Machine

/-! ## The header's fields -/

/-- The `w` bits of a number from bit `low` on, most significant first. -/
def spell (n low : Nat) : Nat → List Bool
  | 0 => []
  | w + 1 => n.testBit (low + w) :: spell n low w

@[simp] theorem spell_length (n low w : Nat) : (spell n low w).length = w := by
  induction w with
  | zero => rfl
  | succ w ih => simp [spell, ih]

/-- The bits of a number spell that field of it. -/
theorem numberOf_spell (n low w : Nat) : numberOf (spell n low w) = n / 2 ^ low % 2 ^ w := by
  have key : ∀ acc, (spell n low w).foldl (fun n b => 2 * n + b.toNat) acc = acc * 2 ^ w + n / 2 ^ low % 2 ^ w := by
    induction w with
    | zero => simp [spell, Nat.mod_one]
    | succ w ih =>
      intro acc
      rw [spell, List.foldl_cons, ih, Nat.mod_pow_succ, Nat.toNat_testBit, Nat.pow_add, Nat.div_div_eq_div_mul]
      ring
  simpa [numberOf] using key 0

@[simp] theorem byteBits_length (b : Byte) : (byteBits b).length = 8 := rfl

@[simp] theorem bitsOf_length (l : List Byte) : (bitsOf l).length = 8 * l.length := by
  induction l with
  | nil => rfl
  | cons b l ih =>
    rw [bitsOf, List.flatMap_cons, List.length_append, byteBits_length, ← bitsOf, ih, List.length_cons]
    omega

theorem bitsOf_append (l k : List Byte) : bitsOf (l ++ k) = bitsOf l ++ bitsOf k := List.flatMap_append

/-- Two header bytes as they are sent: the sixteen bits of their number (R181). -/
theorem bitsOf_bytes16 (n : Nat) : bitsOf (bytes16 n) = spell n 0 16 := by
  have hhigh : ∀ i, (n / 256).testBit i = n.testBit (i + 8) := fun i => by
    rw [show 256 = 2 ^ 8 from rfl, Nat.testBit_div_two_pow]
  simp only [bitsOf, bytes16, List.flatMap_cons, List.flatMap_nil, List.append_nil, byteBits, byteOf, BitVec.getLsbD_ofNat, hhigh, spell]
  rfl

/-- The payload lengths of Table 6 fit the header's fields. -/
theorem lengthAccepted_bounds {kind len : Nat} (h : lengthAccepted kind len = true) : kind < 16 ∧ len < 64 := by
  unfold lengthAccepted at h
  split at h <;> simp at h <;> omega

/-- The fields of a header, as a receiver reads them (R9, R12). -/
theorem header_fields {kind len : Nat} (sender : Station) (h : lengthAccepted kind len = true) :
    let bits := bitsOf (headerBytes kind sender len)
    numberOf (bits.take 4) = kind ∧ numberOf ((bits.drop 4).take 6) = sender.toNat ∧ numberOf (bits.drop 10) = len := by
  obtain ⟨hk, hl⟩ := lengthAccepted_bounds h
  have hs : sender.toNat < 64 := sender.isLt
  intro bits
  have hbits : bits = spell (kind * 4096 + sender.toNat * 64 + len) 0 16 := bitsOf_bytes16 _
  have h4 : bits.take 4 = spell (kind * 4096 + sender.toNat * 64 + len) 12 4 := by rw [hbits]; rfl
  have h6 : (bits.drop 4).take 6 = spell (kind * 4096 + sender.toNat * 64 + len) 6 6 := by rw [hbits]; rfl
  have h10 : bits.drop 10 = spell (kind * 4096 + sender.toNat * 64 + len) 0 6 := by rw [hbits]; rfl
  rw [h4, h6, h10, numberOf_spell, numberOf_spell, numberOf_spell]
  omega

/-! ## The receiver, bit by bit -/

/-- A frame's bits before stuffing, with the payload length `n` that a receiver's header check reads in them (R9). -/
structure Announces (frame : List Bool) (n : Nat) : Prop where
  total : frame.length = 32 + 8 * n
  accepted : lengthAccepted (numberOf (frame.take 4)) n = true
  announced : numberOf ((frame.take 16).drop 10) = n

/-- The receiver holds the frame's bits up to `rest`, and the payload length once the header is in. -/
structure Receiving (frame : List Bool) (n : Nat) (a : Assembler) (rest : List Bool) : Prop where
  bits : a.bits ++ rest = frame
  length : a.length = if a.bits.length < 16 then none else some n
  tail : a.tail = 0

theorem receiveBits_more {a a' : Assembler} {b : Bool} (bs : List Bool) (h : receiveBit a b = .more a') :
    receiveBits a (b :: bs) = receiveBits a' bs := by
  rw [receiveBits, h]

theorem receiveBits_accept {a : Assembler} {b : Bool} {kind station : Nat} {payload : List Bool}
    (h : receiveBit a b = .accept kind station payload) : receiveBits a [b] = some (.accept kind station payload) := by
  rw [receiveBits, h]
  rfl

/-- After five equal bits the opposite level is a stuff bit, and no frame bit (R2). -/
theorem receiveBit_stuff {a : Assembler} (h : a.run = 5) :
    receiveBit a (!a.level) = .more { a with run := 1, level := !a.level } := by
  simp [receiveBit, h]

section Frame

variable {frame rest : List Bool} {n : Nat} {a : Assembler} (hf : Announces frame n)

include hf

/-- A frame bit is taken in; with the sixteenth the header passes its check (R9). -/
theorem receiveBit_frame {b : Bool} (ha : Receiving frame n a (b :: rest)) (hrun : a.run ≠ 5) :
    ∃ a', receiveBit a b = .more a' ∧ Receiving frame n a' rest ∧ a'.run = (if b = a.level then a.run + 1 else 1) ∧
      a'.level = b := by
  obtain ⟨hbits, hlen, htail⟩ := ha
  have hshort : a.bits.length < frame.length := by simp [← hbits]
  have hopen : expectedBits a ≠ some a.bits.length := by
    rw [expectedBits, hlen]
    split
    · simp
    · simpa using (hf.total ▸ hshort).ne'
  have hnext : a.bits ++ [b] ++ rest = frame := by simpa using hbits
  simp only [receiveBit, if_neg hrun, if_neg hopen, List.length_append, List.length_singleton]
  by_cases h16 : a.bits.length + 1 = 16
  · have hhead : a.bits ++ [b] = frame.take 16 := by
      rw [← hnext, List.take_left' (by simpa using h16)]
    have hpass : lengthAccepted (numberOf ((a.bits ++ [b]).take 4)) (numberOf ((a.bits ++ [b]).drop 10)) = true := by
      rw [hhead, List.take_take, hf.announced]
      exact hf.accepted
    simp only [if_pos h16, checkHeader, if_pos hpass]
    refine ⟨_, rfl, ⟨hnext, ?_, htail⟩, rfl, rfl⟩
    simpa [hhead, hf.announced, hf.total] using by omega
  · simp only [if_neg h16]
    refine ⟨_, rfl, ⟨hnext, ?_, htail⟩, rfl, rfl⟩
    simp only [hlen, List.length_append, List.length_singleton]
    have hsame : a.bits.length < 16 ↔ a.bits.length + 1 < 16 := by omega
    simp only [hsame]

variable {kind station : Nat} {payload : List Bool}
  (hcrc : ∀ a : Assembler, a.bits = frame → checkCrc a = .accept kind station payload)

include hcrc

/-- Once every frame bit is in, the sixth recessive bit time brings the CRC test (R10). -/
theorem receiveBits_tail (hbits : a.bits = frame) (hlen : a.length = some n) (hrun : a.run ≠ 5) (k : Nat)
    (hk : a.tail + (k + 1) = 6) :
    receiveBits a (List.replicate (k + 1) true) = some (.accept kind station payload) := by
  have hdone : expectedBits a = some a.bits.length := by rw [expectedBits, hlen, hbits, hf.total]; rfl
  induction k generalizing a with
  | zero =>
    refine receiveBits_accept ?_
    have h5 : a.tail = 5 := by omega
    simp [receiveBit, hrun, hdone, h5, hcrc a hbits]
  | succ k ih =>
    have hmore : receiveBit a true = .more { a with tail := a.tail + 1 } := by
      have h5 : a.tail ≠ 5 := by omega
      simp [receiveBit, hrun, hdone, h5]
    rw [List.replicate_succ, receiveBits_more _ hmore]
    exact ih hbits hlen hrun (by dsimp only; omega) hdone

/-- What is left of a frame, stuffed as a sender stuffs it and followed by the six recessive bit times, ends in its
acceptance (R2, R10). -/
theorem receiveBits_stuffed (ha : Receiving frame n a rest) :
    receiveBits a (stuffFrom a.run a.level rest ++ frameTail) = some (.accept kind station payload) := by
  induction rest generalizing a with
  | nil =>
    have hbits : a.bits = frame := by simpa using ha.bits
    have hlen : a.length = some n := by rw [ha.length, hbits, hf.total, if_neg (by omega)]
    by_cases hrun : a.run = 5
    · rw [stuffFrom, if_pos hrun, List.singleton_append, receiveBits_more _ (receiveBit_stuff hrun)]
      exact receiveBits_tail (a := { a with run := 1, level := !a.level }) hf hcrc hbits hlen (by simp) 5 (by simp [ha.tail])
    · rw [stuffFrom, if_neg hrun, List.nil_append]
      exact receiveBits_tail hf hcrc hbits hlen hrun 5 (by simp [ha.tail])
  | cons b bs ih =>
    by_cases hrun : a.run = 5
    · obtain ⟨a', hmore, ha', hrun', hlevel⟩ := receiveBit_frame (a := { a with run := 1, level := !a.level }) hf
        ⟨ha.bits, ha.length, ha.tail⟩ (by simp)
      rw [stuffFrom, if_pos hrun, List.cons_append, receiveBits_more _ (receiveBit_stuff hrun), List.cons_append,
        receiveBits_more _ hmore]
      have := ih ha'
      rwa [hrun', hlevel] at this
    · obtain ⟨a', hmore, ha', hrun', hlevel⟩ := receiveBit_frame hf ha hrun
      rw [stuffFrom, if_neg hrun, List.cons_append, receiveBits_more _ hmore]
      have := ih ha'
      rwa [hrun', hlevel] at this

end Frame

/-! ## The sender's frame -/

section Sender

variable {kind : Nat} {payload : List Byte} (sender : Station) (h : lengthAccepted kind payload.length = true)

theorem frameBits_take_header (kind : Nat) (sender : Station) (payload : List Byte) :
    (frameBits kind sender payload).take 16 = bitsOf (headerBytes kind sender payload.length) := by
  rw [frameBits, bitsOf_append, List.append_assoc, List.take_left' (by simp [headerBytes, bytes16])]

include h

/-- A sender's frame announces the length of its payload (R9). -/
theorem frameBits_announces : Announces (frameBits kind sender payload) payload.length := by
  obtain ⟨hkind, -, hlen⟩ := header_fields sender h
  have htake : (frameBits kind sender payload).take 4 = (bitsOf (headerBytes kind sender payload.length)).take 4 := by
    rw [← frameBits_take_header, List.take_take]
    rfl
  refine ⟨?_, ?_, ?_⟩
  · simp [frameBits, headerBytes, bytes16, halfBytes]
    omega
  · rwa [htake, hkind]
  · rw [frameBits_take_header, hlen]

/-- The CRC that a sender appends passes the receiver's test (R4, R10). -/
theorem checkCrc_frameBits (a : Assembler) (ha : a.bits = frameBits kind sender payload) :
    checkCrc a = .accept kind sender.toNat (bitsOf payload) := by
  obtain ⟨hkind, hstation, -⟩ := header_fields sender h
  have htotal := (frameBits_announces sender h).total
  have hbody : ∀ body, body = bitsOf (headerBytes kind sender payload.length ++ payload) →
      a.bits = body ++ bitsOf (halfBytes (crcOf body)) ∧ body.length = a.bits.length - 16 := by
    rintro body rfl
    refine ⟨ha, ?_⟩
    rw [ha, htotal]
    simp [headerBytes, bytes16]
    omega
  obtain ⟨hbits, hlen⟩ := hbody _ rfl
  have htake : a.bits.take (a.bits.length - 16) = bitsOf (headerBytes kind sender payload.length ++ payload) := by
    rw [← hlen, hbits, List.take_left]
  have hdrop : a.bits.drop (a.bits.length - 16) =
      bitsOf (halfBytes (crcOf (bitsOf (headerBytes kind sender payload.length ++ payload)))) := by
    rw [← hlen, hbits, List.drop_left]
  have hhead : (a.bits.take 16) = bitsOf (headerBytes kind sender payload.length) := by rw [ha, frameBits_take_header]
  have h4 : a.bits.take 4 = (bitsOf (headerBytes kind sender payload.length)).take 4 := by
    rw [← hhead, List.take_take]
    rfl
  have h6 : (a.bits.drop 4).take 6 = ((bitsOf (headerBytes kind sender payload.length)).drop 4).take 6 := by
    rw [← hhead, List.drop_take, List.take_take]
    rfl
  have hpay : (bitsOf (headerBytes kind sender payload.length ++ payload)).drop 16 = bitsOf payload := by
    rw [bitsOf_append, List.drop_left' (by simp [headerBytes, bytes16])]
  simp only [checkCrc, htake, hdrop, if_true, h4, h6, hkind, hstation, hpay]

end Sender

/-- Settles O12: the receiver takes in the stuffed frame bit by bit (`receiveBits_stuffed`), and the header and the CRC of the
sender's frame pass its checks. -/
theorem receiverAcceptsSender : Obligations.ReceiverAcceptsSender := by
  intro kind sender payload h
  exact receiveBits_stuffed (a := Assembler.start) (frameBits_announces sender h) (checkCrc_frameBits sender h)
    ⟨rfl, rfl, rfl⟩

end Sys2Proof.Machine
end

section
/-! SUPPORT. The statements about the line engine's own commands (spec 01). -/

namespace Sys2Proof.Machine

/-! ## Reset, receiver -/

/-- Settles O3, block by block: the reset state is one fixed state, and its view table and channels are copies of one record. -/
theorem resetValues : Obligations.ResetValues := by
  refine ⟨by decide, by decide, ⟨rfl, fun e he => ?_, rfl, rfl⟩, by decide, by decide, ⟨rfl, rfl, rfl, fun c hc => ?_⟩, by decide,
    by decide, by decide, by decide, by decide, by decide⟩
  · rw [List.eq_of_mem_replicate he]
    exact ⟨rfl, rfl, rfl⟩
  · rw [List.eq_of_mem_replicate hc]
    exact ⟨rfl, rfl, rfl⟩

/-- Settles O5: each of the three moves is its arm of the line engine with its event possible. -/
theorem receiverMoves : Obligations.ReceiverMoves := by
  refine ⟨fun s bits hrun hhunt hstop => ?_, fun s hrun hidle => ?_, fun s bits hrun hrecv hdiscard => ?_⟩
  · change execLineIdle s bits = _
    rw [execLineIdle, if_pos ⟨hrun, hhunt⟩, huntBits_eq_idleAfter _ _ hstop]
    rfl
  · change execStartDelimiter s = _
    rw [execStartDelimiter, if_pos ⟨hrun, hidle⟩]
    rfl
  · change execFrameDiscarded bits s = _
    rw [execFrameDiscarded, if_pos ⟨hrun, hrecv, hdiscard⟩]
    rfl

/-! ## The attempt -/

theorem payloadNow_eq (s : State) (b : Bulletin) :
    payloadNow s b = if b = .beacon then ownBeaconBytes s else bulletinBytes b := by
  cases b <;> simp [payloadNow]

/-- A temperature's two bytes (R181). -/
theorem temperatureBytes_eq (t : Option Int) :
    temperatureBytes t = t.elim [0x80, 0x00] fun x => bytes16 (x % 65536).toNat := by
  cases t with
  | none => rfl
  | some x => exact signedBytes_eq_bytes16 x

/-- The own BEACON byte for byte (Tables 8 and 48), its fields in the layout's own operators. -/
theorem ownBeaconBytes_eq (s : State) : ownBeaconBytes s =
    [s.view.sequence, byteOf (s.start.config.header.interval / 100),
      byteOf (linkCode s.view.link * 64 + weight s.shift.epoch.isSome 32 + weight (decide (s.shift.phase = .changeover)) 16
        + s.shift.page.val),
      s.shift.epoch.getD 0, byteOf s.traffic.count,
      byteOf (baySummaryByte s.traffic.uncertain s.air.available s.traffic.gate s.air.gasClass s.lighting.bay),
      s.traffic.gateCount]
    ++ s.heat.last.elim [0x80, 0x00] (fun x => bytes16 (x % 65536).toNat) ++ bytes16 (s.air.netFlow % 65536).toNat ++ [byteOf s.doors.openUnsealed]
    ++ bytes16 s.alloc.reported ++ bytes16 s.alloc.requests.q0 ++ bytes16 s.alloc.requests.q1
    ++ bytes16 s.alloc.requests.q2 ++ bytes16 s.alloc.requests.q3 ++ bytes16 s.alarms.active.toNat := by
  have hpage : (BitVec.ofNat 4 s.shift.page.val).toNat = s.shift.page.val := by
    rw [BitVec.toNat_ofNat, Nat.mod_eq_of_lt (by omega)]
  rw [ownBeaconBytes, beaconBytes, halfBytes_eq_bytes16, signedBytes_eq_bytes16, temperatureBytes_eq]
  simp only [ownBeacon, hpage, shiftByte, Nat.add_assoc]
  rfl

/-- Settles O6: the attempt marks the slot that `chosenSlot_split` finds, and the bytes are those of the layouts. -/
theorem transmitAttemptStart : Obligations.TransmitAttemptStart := by
  refine ⟨fun s pre post x hrun hidle hlink hqueue hpre hpost => ?_, fun s => ?_, fun active latched => ?_, fun h => ?_,
    fun _ _ => rfl, fun _ _ _ _ _ => rfl⟩
  · change execTransmitAttemptStart s = _
    have hmay : mayAttempt s = true := by simp [mayAttempt, hrun, hidle, hlink]
    simp only [execTransmitAttemptStart, if_pos hmay, hqueue, chosenSlot_split hpre hpost, startAttempt,
      markInFlight_split hpre, payloadNow_eq]
    rfl
  · rw [ownBeaconBytes_eq]
    cases s.heat.last <;> cases s.shift.epoch <;> rfl
  · change halfBytes active ++ halfBytes latched = _
    rw [halfBytes_eq_bytes16, halfBytes_eq_bytes16]
    rfl
  · obtain ⟨direction, speed, count, transit⟩ := h
    cases direction <;> cases speed <;> rfl

end Sys2Proof.Machine
end

section
/-! SUPPORT. What the end of an event leaves of the line engine and reports to the alarm unit, and the statements about a
transmission's end (R6 to R8, R21 to R23). -/

namespace Sys2Proof.Machine

/-! ## The end of an event -/

/-- A bulletin inserted touches only the transmit queue (R17 to R19). -/
theorem insertBulletin_eq (b : Bulletin) (l : Line) : insertBulletin b l = { l with queue := (insertBulletin b l).queue } := by
  cases b <;> simp only [insertBulletin, offerAlarm]
  (repeat' split) <;> rfl

/-- The end of an event touches only the queue of the line engine. -/
theorem EventFrame.line_eq {before s t : State} (h : EventFrame before s t) : t.line = { s.line with queue := t.line.queue } := by
  rw [h.line]
  split
  · exact insertBulletin_eq _ _
  · rfl

/-- After an event a condition is active exactly where its cause stands (R149). -/
theorem EventFrame.condition {before s t : State} (h : EventFrame before s t) {n : Nat} (hn : n < 16) :
    conditionSet t.alarms.active n = (alarmCauses t).getD n false := by
  rw [h.alarms]
  exact conditionSet_packFlags _ rfl n hn

/-- LINE_FAULT is active exactly where the line engine holds its cause (R22, R8). -/
theorem EventFrame.line_fault {before s t : State} (h : EventFrame before s t) :
    conditionSet t.alarms.active 15 = s.line.lineFault := by
  rw [h.condition (by decide), ← congrArg Line.lineFault h.line_eq]
  rfl

/-! ## The frame in flight -/

section InFlight

variable {s : State} {pre post : List Slot} {x : Slot} {p : List Byte} (hsend : x.sending = some p)

include hsend

theorem inFlight_of_sending : x.inFlight = true := by simp [Slot.inFlight, hsend]

theorem bitsInFlight_eq : bitsInFlight s x = lineBits (kindOf x.content) (BitVec.ofNat 6 s.start.strapped) p := by
  rw [bitsInFlight, hsend]
  rfl

/-- A recessive bit of the arbitration field can be lost (R6). -/
theorem mayLose_iff (k : Nat) : mayLose s x k = true ↔
    k < arbitrationSpan (kindOf x.content) (BitVec.ofNat 6 s.start.strapped) p ∧
      (lineBits (kindOf x.content) (BitVec.ofNat 6 s.start.strapped) p)[k]? = some true := by
  rw [mayLose, bitsInFlight_eq hsend, hsend, Bool.and_eq_true, decide_eq_true_eq, decide_eq_true_eq]
  rfl

end InFlight

/-! ## Lost arbitration -/

/-- A lost arbitration writes the engine, the assembler, the idle count and the queue (R6). -/
theorem loseArbitration_eq (sent : List Bool) (k : Nat) (l : Line) : loseArbitration sent k l = { l with
    engine := (loseArbitration sent k l).engine, idle := 0, assembler := (loseArbitration sent k l).assembler
    queue := l.queue.map returnSlot } := by
  unfold loseArbitration
  dsimp only
  split <;> rfl

/-- The loser receives the winner's frame, unless the bit it lost on is a stuffing violation (R2, R6, R11). -/
theorem loseArbitration_receiver (sent : List Bool) (k : Nat) (l : Line) :
    (∃ a, receiveBits Assembler.start (sent.take k ++ [false]) = some (.more a) ∧
        (loseArbitration sent k l).engine = .receive ∧ (loseArbitration sent k l).assembler = a) ∨
      ((∀ a, receiveBits Assembler.start (sent.take k ++ [false]) ≠ some (.more a)) ∧
        (loseArbitration sent k l).engine = .hunt ∧ (loseArbitration sent k l).assembler = Assembler.start) := by
  unfold loseArbitration
  dsimp only
  split
  · rename_i a h
    exact .inl ⟨a, h, rfl, rfl⟩
  · rename_i h
    exact .inr ⟨h, rfl, rfl⟩

/-- Settles O7: the slot that `inFlightSlot_split` finds returns, and the sender is the receiver that
`loseArbitration_receiver` describes. -/
theorem lostArbitration : Obligations.LostArbitration := by
  intro s k pre post x p sent hrun hengine hqueue hsend hrest hspan hbit
  have hx := inFlight_of_sending hsend
  have hbits : bitsInFlight s x = sent := bitsInFlight_eq hsend
  have hexec : exec (.lostArbitration k) s = .next (s.setLine (loseArbitration sent k s.line)) := by
    change execLostArbitration k s = _
    rw [execLostArbitration, if_pos ⟨hrun, hengine⟩, hqueue, inFlightSlot_split hrest hx]
    simp only [if_pos ((mayLose_iff hsend k).mpr ⟨hspan, hbit⟩), hbits]
  refine ⟨_, hexec, ?_, loseArbitration_receiver sent k s.line⟩
  have hreturn : s.line.queue.map returnSlot = pre ++ Slot.waiting (x.renewed.getD x.content) :: post := by
    rw [hqueue, map_returnSlot_split hrest hx]
  have hline := loseArbitration_eq sent k s.line
  rw [hreturn] at hline
  exact congrArg s.setLine hline

/-! ## Bit error and abort -/

/-- With the timebase lost an abort ends in HELD, without counting (R23). -/
theorem endAbort_of_lost {s : State} (h : s.view.timebaseLost = true) :
    endAbort s = s.setLine { s.line with engine := .held, idle := 0 } := if_pos h

/-- Below the sixteenth an abort is counted (R21). -/
theorem endAbort_of_counted {s : State} (hbase : s.view.timebaseLost = false) (h : s.line.failures + 1 < 16) :
    endAbort s = s.setLine (abortCounted s.line) := by
  rw [endAbort, if_neg (by simp [hbase]), if_pos h]

/-- The sixteenth abort resets the line engine (R22). -/
theorem endAbort_of_sixteenth {s : State} (hbase : s.view.timebaseLost = false) (h : ¬s.line.failures + 1 < 16) :
    endAbort s = finish s .none (resetLink (s.setLine (lineReset s.line))) := by
  rw [endAbort, if_neg (by simp [hbase]), if_neg h]

/-- Settles O8: a bit that is no recessive one of the arbitration field is a bit error, and the slot returns as the abort
ends (`map_returnSlot_split`). -/
theorem bitErrorAndAbort : Obligations.BitErrorAndAbort := by
  refine ⟨?_, ?_, ?_⟩
  · intro s k b pre post x p sent hrun hengine hqueue hsend hrest hbit hfield
    have hbits : bitsInFlight s x = sent := bitsInFlight_eq hsend
    have hkept : mayLose s x k = false := by
      rw [Bool.eq_false_iff, Ne, mayLose_iff hsend]
      rintro ⟨hspan, hrec⟩
      have hb : b = true := Option.some.inj (hbit.symm.trans hrec)
      exact absurd (hfield hb) (by omega)
    have herr : mayErr s x k = true := by
      have hlen : k < sent.length := (List.getElem?_eq_some_iff.mp hbit).1
      simp [mayErr, hkept, hbits, hlen]
    change execBitError s k = _
    rw [execBitError, if_pos ⟨hrun, hengine⟩, hqueue, inFlightSlot_split hrest (inFlight_of_sending hsend)]
    simp only [if_pos herr, hbits, meetBitError, hbit]
    rfl
  · intro s pre post x hrun hengine hbase hcount hqueue hx hrest
    change execAbortEnd s = _
    rw [execAbortEnd, if_pos ⟨hrun, hengine⟩, endAbort_of_counted hbase hcount, abortCounted, hqueue,
      map_returnSlot_split hrest hx]
    rfl
  · intro s hrun hengine hbase
    change execAbortEnd s = _
    rw [execAbortEnd, if_pos ⟨hrun, hengine⟩, endAbort_of_lost hbase]
    rfl

/-- The station after a line-engine reset, before the end of the event (R22, R35). -/
theorem resetLink_lineReset (s : State) : resetLink (s.setLine (lineReset s.line)) = { s with
    line := { s.line with
      engine := .hunt, idle := 0, assembler := Assembler.start, queue := [], failures := 0, lineFault := true }
    view := if s.view.link = .listen ∨ s.view.link = .joined then
        { s.view with link := .isolated, listenDue := none, isolationDue := none }
      else s.view } := by
  unfold resetLink
  dsimp only [State.setLine_view]
  split <;> simp only [*] <;> rfl

/-- Settles O9: the end of the event (`finish_frame`) follows the reset of `resetLink_lineReset`. -/
theorem sixteenthAbortResets : Obligations.SixteenthAbortResets := by
  intro s hrun hengine hbase hcount
  have hexec : exec .abortEnd s = .next (finish s .none (resetLink (s.setLine (lineReset s.line)))) := by
    change execAbortEnd s = _
    rw [execAbortEnd, if_pos ⟨hrun, hengine⟩, endAbort_of_sixteenth hbase (by omega)]
  have hframe := finish_frame s .none (resetLink (s.setLine (lineReset s.line)))
  rw [resetLink_lineReset] at hexec hframe
  have hlast := congrArg Line.lastAlarm hframe.line_eq
  exact ⟨_, hexec, hframe, hlast, hframe.line_fault⟩

/-! ## Transmission complete -/

/-- What a completed transmission leaves of the slot in flight (R8, R17, R19). -/
theorem completeSlot_toList {x : Slot} (hx : x.inFlight = true) : (completeSlot x).toList =
    match x.renewed with
    | some r => if kindOf x.content = 0 ∧ r = x.content then [] else [{ content := r, sending := none, renewed := none }]
    | none => [] := by
  rw [completeSlot, if_pos hx]
  cases x.renewed with
  | none => rfl
  | some r =>
    simp only [isKind_iff, show kindAlarm = 0 from rfl]
    split <;> rfl

/-- The station after a completed transmission, before the end of an event (R8, R35). -/
theorem completeLink_completeLine (x : Slot) (sent : List Bool) (s : State) :
    completeLink (s.setLine (completeLine x sent s.line)) = { s with
      line := completeLine x sent s.line
      view := if decide (s.view.link = .isolated ∧ s.start.config.header.nCfg = 1) then
          { s.view with
            link := .listen, listenDue := some (s.clock + 3 * s.start.config.header.interval), heard := false
            isolationDue := none }
        else s.view } := by
  unfold completeLink
  by_cases h : s.view.link = .isolated ∧ s.start.config.header.nCfg = 1
  · simp [h, enterListen, State.setView, State.setLine]
  · simp [h, State.setLine]

/-- Settles O10: only a LINE_FAULT that clears and a link state that changes bring the end of an event. -/
theorem transmissionComplete : Obligations.TransmissionComplete := by
  intro s pre post x p hrun hengine hqueue hsend hrest rejoin u
  have hx := inFlight_of_sending hsend
  have hu : completeLink (s.setLine (completeLine x (bitsInFlight s x) s.line)) = u := by
    rw [completeLink_completeLine, completeLine, hqueue, filterMap_completeSlot_split hrest, completeSlot_toList hx,
      bitsInFlight_eq hsend]
    rfl
  have hlink : u.view.link ≠ s.view.link ↔ rejoin = true := by
    by_cases h : rejoin = true
    · have hiso : s.view.link = .isolated := (of_decide_eq_true h).1
      simp [u, h, hiso]
    · simp [u, h]
  have hexec : exec .transmissionComplete s =
      .next (if s.line.lineFault = true ∨ u.view.link ≠ s.view.link then finish s .none u else u) := by
    change execTransmissionComplete s = _
    rw [execTransmissionComplete, if_pos ⟨hrun, hengine⟩, hqueue, inFlightSlot_split hrest hx]
    simp only [completeTransmission, hu]
  simp only [hlink] at hexec
  refine ⟨_, hexec, fun hfault hstay => ?_, fun hend => ?_, fun hfault => ?_⟩
  · rw [if_neg (by simp [hfault, hstay])]
  · rw [if_pos hend]
    exact finish_frame s .none u
  · rw [if_pos (.inl hfault)]
    exact (finish_frame s .none u).line_fault

end Sys2Proof.Machine
end

section
/-! SUPPORT. The transmit queue's insertions (R17 to R20), and the statement about them. -/

namespace Sys2Proof.Machine

/-! ## One item of a kind -/

theorem renewSlot_eq (b : Bulletin) (x : Slot) :
    renewSlot b x = if x.sending = none then { x with content := b } else { x with renewed := some b } := by
  cases h : x.sending <;> simp [renewSlot, Slot.inFlight, h]

/-- A bulletin of a kind that is not queued joins the queue (R17). -/
theorem insertSingle_absent {b : Bulletin} {q : List Slot} (h : ∀ x ∈ q, kindOf x.content ≠ kindOf b) :
    insertSingle b q = q ++ [Slot.waiting b] := by
  have hnone : ¬q.any (Slot.isKind (kindOf b)) = true := by simpa using h
  rw [insertSingle, if_neg hnone]

/-- A bulletin meets the one queued item of its kind (R17). -/
theorem insertSingle_split {b : Bulletin} {pre post : List Slot} {x : Slot}
    (hrest : ∀ y ∈ pre ++ post, kindOf y.content ≠ kindOf b) (hx : kindOf x.content = kindOf b) :
    insertSingle b (pre ++ x :: post) = pre ++ renewSlot b x :: post := by
  have hany : (pre ++ x :: post).any (Slot.isKind (kindOf b)) = true := by simp [hx]
  have hother : ∀ l : List Slot, (∀ y ∈ l, kindOf y.content ≠ kindOf b) →
      l.map (fun y => if Slot.isKind (kindOf b) y then renewSlot b y else y) = l := fun l hl =>
    (List.map_congr_left fun y hy => if_neg (by simpa using hl y hy)).trans (List.map_id l)
  rw [insertSingle, if_pos hany, List.map_append, List.map_cons, if_pos (by simpa using hx),
    hother pre fun y hy => hrest y (by simp [hy]), hother post fun y hy => hrest y (by simp [hy])]

/-! ## HANDOFFs -/

/-- The oldest HANDOFF that is not in flight is dropped (R18). -/
theorem dropOldestHandoff_split {pre post : List Slot} {x : Slot}
    (hpre : ∀ y ∈ pre, kindOf y.content = kindHandoff → y.inFlight = true) (hx : kindOf x.content = kindHandoff)
    (hwait : x.inFlight = false) : dropOldestHandoff (pre ++ x :: post) = pre ++ post := by
  induction pre with
  | nil => simp [dropOldestHandoff, Slot.isKind, hx, hwait]
  | cons y ys ih =>
    have hy : (Slot.isKind kindHandoff y && !y.inFlight) = false := by
      rw [Bool.and_eq_false_imp, isKind_iff, Bool.not_eq_false']
      exact hpre y (by simp)
    simp [dropOldestHandoff, hy, ih fun z hz => hpre z (by simp [hz])]

/-! ## Each kind's rule -/

theorem insertHandoff_of_room {q : List Slot} (h : countKind kindHandoff q < 4) (fields : Handoff) :
    insertHandoff fields q = q ++ [Slot.waiting (.handoff fields)] := if_pos h

theorem insertHandoff_of_full {q : List Slot} (h : countKind kindHandoff q = 4) (fields : Handoff) :
    insertHandoff fields q = dropOldestHandoff q ++ [Slot.waiting (.handoff fields)] := if_neg (by omega)

theorem offer_of_silent {s : State} (h : s.view.link = .silent) (b : Bulletin) : offer b s = s := if_pos h

theorem offer_of_open {s : State} (h : s.view.link ≠ .silent) (b : Bulletin) :
    offer b s = s.setLine (insertBulletin b s.line) := if_neg h

/-- A SHIFT, a BEACON and a REPLY are single items of their kinds (R17). -/
theorem insertBulletin_single {b : Bulletin} (h : kindOf b = 2 ∨ kindOf b = 4 ∨ kindOf b = 6) (l : Line) :
    insertBulletin b l = { l with queue := insertSingle b l.queue } := by
  cases b with
  | alarm => simp [kindOf, kindAlarm] at h
  | handoff => simp [kindOf, kindHandoff] at h
  | shift => rfl
  | beacon => rfl
  | reply => rfl

theorem exists_eq_of_kindOf_zero {b : Bulletin} (h : kindOf b = 0) : ∃ active latched, b = .alarm active latched := by
  cases b <;> simp [kindOf, kindHandoff, kindShift, kindBeacon, kindReply] at h
  exact ⟨_, _, rfl⟩

theorem eq_handoff_of_kindOf {b : Bulletin} (h : kindOf b = 1) : ∃ fields, b = .handoff fields := by
  cases b <;> simp [kindOf, kindAlarm, kindShift, kindBeacon, kindReply] at h
  exact ⟨_, rfl⟩

section Alarm

variable {active latched : Half} {l : Line}

/-- An ALARM that differs from the last one sent, or meets one in flight, is a single item of its kind (R19). -/
theorem insertBulletin_alarm
    (h : (∃ x ∈ l.queue, kindOf x.content = 0 ∧ x.sending ≠ none) ∨ l.lastAlarm ≠ some (active, latched)) :
    insertBulletin (.alarm active latched) l = { l with queue := insertSingle (.alarm active latched) l.queue } := by
  simp only [insertBulletin, offerAlarm]
  split
  · rfl
  · rename_i hnone
    rcases h with ⟨x, hx, hkind, hsend⟩ | h
    · refine absurd (List.any_eq_true.mpr ⟨x, hx, ?_⟩) hnone
      rw [Bool.and_eq_true, isKind_iff, inFlight_eq_true_iff]
      exact ⟨hkind, hsend⟩
    · rw [if_neg h]

/-- An ALARM equal to the last one sent is not queued, and withdraws a queued one (R19). -/
theorem insertBulletin_repeated (h : ∀ x ∈ l.queue, kindOf x.content = 0 → x.sending = none)
    (hlast : l.lastAlarm = some (active, latched)) :
    insertBulletin (.alarm active latched) l =
      { l with queue := l.queue.filter fun x => !Slot.isKind kindAlarm x } := by
  have hnone : ¬l.queue.any (fun x => Slot.isKind kindAlarm x && x.inFlight) = true := by
    simp only [List.any_eq_true, Bool.and_eq_true, isKind_iff, inFlight_eq_true_iff, not_exists, not_and]
    exact fun x hx hkind hsend => hsend (h x hx hkind)
  simp only [insertBulletin, offerAlarm, if_neg hnone, if_pos hlast]

end Alarm

theorem filter_notAlarm_eq_self {q : List Slot} (h : ∀ x ∈ q, kindOf x.content ≠ 0) :
    q.filter (fun x => !Slot.isKind kindAlarm x) = q := by
  rw [List.filter_eq_self]
  intro x hx
  rw [Bool.not_eq_true', Bool.eq_false_iff, Ne, isKind_iff]
  exact h x hx

/-! ## The statement -/

/-- Where a bulletin is a single item of its kind: no ALARM that the last one sent makes needless. -/
theorem insertBulletin_of_single {b : Bulletin} {l : Line}
    (h : (kindOf b = 2 ∨ kindOf b = 4 ∨ kindOf b = 6) ∨ (kindOf b = 0 ∧
      ((∃ x ∈ l.queue, kindOf x.content = 0 ∧ x.sending ≠ none) ∨
        ¬∃ active latched, b = .alarm active latched ∧ l.lastAlarm = some (active, latched)))) :
    insertBulletin b l = { l with queue := insertSingle b l.queue } := by
  rcases h with hkind | ⟨hkind, hfresh⟩
  · exact insertBulletin_single hkind l
  · obtain ⟨active, latched, rfl⟩ := exists_eq_of_kindOf_zero hkind
    exact insertBulletin_alarm (hfresh.imp_right fun h hlast => h ⟨active, latched, rfl, hlast⟩)

/-- Settles O28: each clause is its kind's rule on a queue taken apart at the item it meets. -/
theorem queueInsertion : Obligations.QueueInsertion := by
  intro b s q item taken withQueue single repeated
  refine ⟨fun h => offer_of_silent h b, fun hopen hkind habsent => ?_, fun pre x post hq hrest hx hopen => ⟨?_, ?_⟩,
    fun hopen hrep habsent => ?_, fun hopen hkind hroom => ?_, fun pre x post hq hpre hx hwait hopen hkind hfull => ?_⟩
  · rw [offer_of_open hopen, insertBulletin_of_single (hkind.imp_right fun h => ⟨h.1, .inr h.2⟩),
      insertSingle_absent habsent]
    rfl
  · intro hkind
    have hqueue : s.line.queue = pre ++ x :: post := hq
    have hsingle : insertBulletin b s.line = { s.line with queue := insertSingle b s.line.queue } :=
      insertBulletin_of_single (hkind.imp_right fun h => ⟨h.1, h.2.imp_left fun hsend =>
        ⟨x, by simp [hqueue], hx.trans h.1, hsend⟩⟩)
    rw [offer_of_open hopen, hsingle, hqueue, insertSingle_split hrest hx, renewSlot_eq]
    rfl
  · rintro hsend ⟨active, latched, rfl, hlast⟩
    have hqueue : s.line.queue = pre ++ x :: post := hq
    have hx0 : Slot.isKind kindAlarm x = true := (isKind_iff _ _).mpr hx
    have hother : ∀ y ∈ pre ++ post, kindOf y.content ≠ 0 := hrest
    have hgrounded : ∀ y ∈ s.line.queue, kindOf y.content = 0 → y.sending = none := by
      intro y hy hzero
      rw [hqueue, List.mem_append, List.mem_cons] at hy
      rcases hy with hy | rfl | hy
      · exact absurd hzero (hother y (by simp [hy]))
      · exact hsend
      · exact absurd hzero (hother y (by simp [hy]))
    rw [offer_of_open hopen, insertBulletin_repeated hgrounded hlast, hqueue, List.filter_append,
      List.filter_cons_of_neg (by simp [hx0]),
      filter_notAlarm_eq_self fun y hy => hother y (by simp [hy]),
      filter_notAlarm_eq_self fun y hy => hother y (by simp [hy])]
    rfl
  · obtain ⟨active, latched, rfl, hlast⟩ := hrep
    rw [offer_of_open hopen, insertBulletin_repeated (fun y hy hzero => absurd hzero (habsent y hy)) hlast,
      filter_notAlarm_eq_self habsent]
    rfl
  · obtain ⟨fields, rfl⟩ := eq_handoff_of_kindOf hkind
    rw [offer_of_open hopen, insertBulletin, insertHandoff_of_room hroom]
    rfl
  · obtain ⟨fields, rfl⟩ := eq_handoff_of_kindOf hkind
    have hdrop : dropOldestHandoff s.line.queue = pre ++ post := by
      rw [show s.line.queue = pre ++ x :: post from hq]
      exact dropOldestHandoff_split (fun y hy hy1 => (inFlight_eq_true_iff y).mpr (hpre y hy hy1)) hx
        ((inFlight_eq_false_iff x).mpr hwait)
    rw [offer_of_open hopen, insertBulletin, insertHandoff_of_full hfull, hdrop]
    rfl

end Sys2Proof.Machine
end

section
/-! SUPPORT. The accepted frame by sender and link state, and which commands bring one (R10, R12 to R15, R27); the statements
about accepted frames and queries. -/

namespace Sys2Proof.Machine

/-! ## The accepted frame -/

section Heard

variable {kind : Nat} {sender : Station} {payload : List Byte} {s : State}

/-- An accepted frame touches the line engine, the peer view and the alarm flags (R10, R27). -/
theorem heard_eq (kind : Nat) (sender : Station) (payload : List Byte) (s : State) : heard kind sender payload s =
    { frameEnds kind sender payload s with
      view := (heard kind sender payload s).view, alarms := (heard kind sender payload s).alarms } := by
  unfold heard peerFrame
  dsimp only
  (repeat' split) <;> rfl

/-- In LISTEN a valid peer frame counts as heard (R33). -/
theorem heard_of_listen (h : isPeer sender s = true) (hl : s.view.link = .listen) :
    heard kind sender payload s = (frameEnds kind sender payload s).setView { s.view with heard := true } := by
  have hview : (frameEnds kind sender payload s).view = s.view := rfl
  simp [heard, peerFrame, h, hview, hl]

/-- In JOINED a valid peer frame restarts the isolation timer (R34). -/
theorem heard_of_joined (h : isPeer sender s = true) (hl : s.view.link = .joined) :
    heard kind sender payload s =
      (frameEnds kind sender payload s).setView { s.view with isolationDue := isolationStart s } := by
  have hview : (frameEnds kind sender payload s).view = s.view := rfl
  simp [heard, peerFrame, h, hview, hl]
  rfl

/-- In ISOLATED a valid peer frame enters LISTEN, and the condition ends (R35, R38). -/
theorem heard_of_isolated (h : isPeer sender s = true) (hl : s.view.link = .isolated) (hn : 2 ≤ s.start.config.header.nCfg) :
    heard kind sender payload s =
      ((frameEnds kind sender payload s).setView { s.view with
        link := .listen, listenDue := some (s.clock + 3 * s.start.config.header.interval), heard := true
        isolationDue := none }).setAlarms (endCondition 10 s.alarms) := by
  have hview : (frameEnds kind sender payload s).view = s.view := rfl
  have hcfg : (frameEnds kind sender payload s).start = s.start := rfl
  simp [heard, peerFrame, h, hview, hcfg, hl, hn]
  rfl

/-- A station alone in its shed stays ISOLATED (R35). -/
theorem heard_of_alone (hl : s.view.link = .isolated) (hn : s.start.config.header.nCfg < 2) :
    heard kind sender payload s = frameEnds kind sender payload s := by
  have hview : (frameEnds kind sender payload s).view = s.view := rfl
  have hcfg : (frameEnds kind sender payload s).start = s.start := rfl
  simp [heard, peerFrame, hview, hcfg, hl, Nat.not_le.mpr hn]

/-- In SILENT an accepted frame has no effect on the link state (R36). -/
theorem heard_of_silent (hl : s.view.link = .silent) :
    heard kind sender payload s = frameEnds kind sender payload s := by
  have hview : (frameEnds kind sender payload s).view = s.view := rfl
  simp [heard, peerFrame, hview, hl]

theorem isPeer_of_own (h : sender.toNat = s.start.strapped) : isPeer sender s = false := by
  rw [Bool.eq_false_iff, Ne, isPeer_iff]
  exact fun hp => hp.2.2 h

end Heard

/-- Only the end of ISOLATED touches the alarm flags (R38). -/
theorem heard_alarms {s : State} (hl : s.view.link ≠ .isolated) (kind : Nat) (sender : Station) (payload : List Byte) :
    (heard kind sender payload s).alarms = s.alarms := by
  cases hp : isPeer sender s with
  | false =>
    rw [heard_of_not_peer hp]
    rfl
  | true =>
    cases hlink : s.view.link with
    | listen =>
      rw [heard_of_listen hp hlink]
      rfl
    | joined =>
      rw [heard_of_joined hp hlink]
      rfl
    | isolated => exact absurd hlink hl
    | silent =>
      rw [heard_of_silent hlink]
      rfl

/-- Settles O13: the frame of `heard_eq`, then the sender and the link state, one lemma each. -/
theorem validPeerFrame : Obligations.ValidPeerFrame := by
  intro kind sender payload s u nCfg interval
  refine ⟨heard_eq kind sender payload s, fun hl => heard_alarms hl kind sender payload, fun hother => ?_,
    fun h32 hcfg hown => ?_⟩
  · have hp : isPeer sender s = false := by
      rw [Bool.eq_false_iff, Ne, isPeer_iff]
      omega
    have hu : u = frameEnds kind sender payload s := heard_of_not_peer hp
    rw [hu]
    exact ⟨rfl, rfl⟩
  · have hp : isPeer sender s = true := (isPeer_iff sender s).mpr ⟨h32, hcfg, hown⟩
    cases hlink : s.view.link with
    | listen => exact congrArg State.view (heard_of_listen hp hlink)
    | joined => exact congrArg State.view (heard_of_joined hp hlink)
    | silent =>
      have hu : u = frameEnds kind sender payload s := heard_of_silent hlink
      exact hu ▸ rfl
    | isolated =>
      refine ⟨fun hn => ?_, fun hn => ?_⟩
      · have hu : u = _ := heard_of_isolated hp hlink hn
        have halarms : u.alarms = endCondition 10 s.alarms := congrArg State.alarms hu
        refine ⟨congrArg State.view hu, ?_, fun n hlt => ?_⟩
        · rw [halarms]
          rfl
        · rw [halarms]
          exact endCondition_active (by decide) s.alarms hlt
      · have hu : u = frameEnds kind sender payload s := heard_of_alone hlink hn
        rw [hu]
        exact ⟨rfl, rfl⟩

/-! ## Commands that bring a frame -/

section Take

variable {kind : Nat} {sender : Station} {payload : List Byte} {deliver : State → State} {close : State → State → State}
  {s : State} (hrun : s.start.running = true) (hrecv : s.line.engine = .receive)

include hrun hrecv

theorem mayAccept_of_receive : mayAccept s = true := by simp [mayAccept, hrun, hrecv]

/-- A frame of another station is delivered, and its event closed (R12). -/
theorem takeFrame_of_other (h : sender.toNat ≠ s.start.strapped) :
    takeFrame kind sender payload deliver close s = close s (deliver (heard kind sender payload s)) := by
  rw [takeFrame, if_pos (mayAccept_of_receive hrun hrecv)]
  exact if_neg h

/-- A frame under the own number is dropped, and raises DUPLICATE (R15). -/
theorem takeFrame_of_own (h : sender.toNat = s.start.strapped) :
    takeFrame kind sender payload deliver close s =
      finish s .none (addCause .duplicate (heard kind sender payload s)) := by
  rw [takeFrame, if_pos (mayAccept_of_receive hrun hrecv)]
  exact if_pos h

/-- An undelivered frame leaves what `heard` leaves, and the end of an event where the link state changed (R12 to R14). -/
theorem passFrame_of_other (h : sender.toNat ≠ s.start.strapped) :
    passFrame kind sender payload s = finishLink s (heard kind sender payload s) := takeFrame_of_other hrun hrecv h

end Take

/-- The end of an event that may have changed the link state. -/
theorem finishLink_spec (before s : State) : (s.view.link = before.view.link → finishLink before s = s) ∧
    (s.view.link ≠ before.view.link → EventFrame before s (finishLink before s)) := by
  refine ⟨fun h => if_pos h, fun h => ?_⟩
  rw [finishLink, if_neg h]
  exact finish_frame before .none s

/-- What an answer does with a frame, whatever its delivery: the frame is taken (R12). -/
def TakesFrame (a : Answer) (kind : Nat) (sender : Station) (payload : List Byte) (s : State) : Prop :=
  ∃ deliver close, a = .next (takeFrame kind sender payload deliver close s)

/-- A directive row whose payload names its own kind takes its frame, matched or not (R13). -/
theorem takesFrame_directive {kind : DirectiveKind} {p : Vector Byte 9} (h : directiveKind p = some kind)
    (sender : Station) (deliver : State → State) (s : State) :
    TakesFrame (.next (takeDirective kind sender p deliver s)) kindDirective sender p.toList s := by
  rw [takeDirective, if_pos h]
  split
  · exact ⟨_, _, rfl⟩
  · exact ⟨_, _, rfl⟩

/-- A query row whose payload asks for its own record kind takes its frame, for the own number or not (R14). -/
theorem takesFrame_query {row : Nat} {p : Vector Byte 3} (h : queryFits row p = true) (sender : Station) (s : State) :
    TakesFrame (.next (takeQuery row sender p s)) kindQuery sender p.toList s := by
  rw [takeQuery, if_pos (show asksFor row p = true from h)]
  split
  · exact ⟨_, _, rfl⟩
  · exact ⟨_, _, rfl⟩

/-- A well-formed command that brings a frame takes it, but for a directive or a query that the rows of dropped ones do not
mean (R12 to R14). -/
theorem exec_takesFrame {c : Instr} {kind : Nat} {sender : Station} {payload : List Byte} {s : State}
    (hframe : c.frame = some (kind, sender, payload)) (hwell : c.wellFormed = true)
    (hdirective : ∀ st p, c = .directiveDropped st p →
      ¬(directiveMatches s.start.config.header.group p = true ∧ directiveKind p ≠ none))
    (hquery : ∀ st p, c = .queryDropped st p → queryTarget p ≠ s.start.strapped) :
    TakesFrame (exec c s) kind sender payload s := by
  cases c
  case beaconReceived | handoffReceived | shiftReceived | alarmReceived | replyReceived =>
    obtain ⟨rfl, rfl, rfl⟩ := by simpa [Instr.frame] using hframe
    exact ⟨_, _, rfl⟩
  case lightSet | heatHold | heatSetpoint | heatBoost | ventPurge | ventStop | release | alarmAck =>
    obtain ⟨rfl, rfl, rfl⟩ := by simpa [Instr.frame] using hframe
    exact takesFrame_directive (of_decide_eq_true hwell) _ _ _
  case restart st p =>
    obtain ⟨rfl, rfl, rfl⟩ := by simpa [Instr.frame] using hframe
    change TakesFrame (execRestart st p s) _ _ _ _
    rw [execRestart, if_pos (of_decide_eq_true hwell)]
    split
    · exact ⟨_, _, rfl⟩
    · exact ⟨_, _, rfl⟩
  case queryStatus | queryPeer | queryShift | queryDoor | queryOverrides | queryLoads =>
    obtain ⟨rfl, rfl, rfl⟩ := by simpa [Instr.frame] using hframe
    exact takesFrame_query hwell _ _
  case directiveDropped st p =>
    obtain ⟨rfl, rfl, rfl⟩ := by simpa [Instr.frame] using hframe
    change TakesFrame (execDirectiveDropped st p s) _ _ _ _
    rw [execDirectiveDropped, if_neg (hdirective st p rfl)]
    exact ⟨_, _, rfl⟩
  case queryDropped st p =>
    obtain ⟨rfl, rfl, rfl⟩ := by simpa [Instr.frame] using hframe
    change TakesFrame (execQueryDropped st p s) _ _ _ _
    rw [execQueryDropped, if_neg (hquery st p rfl)]
    exact ⟨_, _, rfl⟩
  all_goals exact absurd hframe (by simp [Instr.frame])

/-! ## The own number heard -/

/-- DUPLICATE joins the silent causes: the link state is SILENT and the queue is empty, unless it was SILENT already
(R36, R20). -/
theorem addCause_duplicate (s : State) : addCause .duplicate s = { s with
    line := { s.line with queue := if s.view.link = .silent then s.line.queue else [] }
    view := if s.view.link = .silent then { s.view with causes := { s.view.causes with duplicate := true } }
      else { s.view with
        causes := { s.view.causes with duplicate := true }, link := .silent, listenDue := none, isolationDue := none } } := by
  unfold addCause
  dsimp only
  split <;> rfl

/-- Settles O14: the frame is taken whatever the command (`exec_takesFrame`), and its sender's number is the own one. -/
theorem ownNumberHeard : Obligations.OwnNumberHeard := by
  intro c kind sender payload s hframe hwell hdirective hquery hrun hrecv hown u
  obtain ⟨deliver, close, hexec⟩ := exec_takesFrame hframe hwell hdirective hquery
  rw [takeFrame_of_own hrun hrecv hown] at hexec
  have hu : u = frameEnds kind sender payload s := heard_of_not_peer (isPeer_of_own hown)
  have hend := finish_frame s .none (addCause .duplicate u)
  have hduplicate := hend.condition (n := 11) (by decide)
  have hcause : (addCause .duplicate u).view.causes.duplicate = true := by
    rw [addCause_duplicate]
    dsimp only
    split <;> rfl
  refine ⟨_, hexec, ?_, ?_⟩
  · rw [addCause_duplicate, hu] at hend
    rw [← show u = heard kind sender payload s from rfl, hu, addCause_duplicate]
    exact hend
  · rw [hduplicate]
    change (finish s .none (addCause .duplicate u)).view.causes.duplicate = true
    rw [finish_view, hcause]

/-! ## Undelivered frames -/

/-- Which directive kind codes name none (R182). -/
theorem directiveKind_eq_none_iff (p : Vector Byte 9) : directiveKind p = none ↔ 9 ≤ p[1].toNat % 16 := by
  have hlt : p[1].toNat % 16 < 16 := Nat.mod_lt _ (by decide)
  unfold directiveKind loNibble
  generalize p[1].toNat % 16 = n at hlt ⊢
  interval_cases n <;> simp

/-- A match mode that is none of the three never matches (R13, R182). -/
theorem directiveMatches_of_unknown {p : Vector Byte 9} (h : 3 ≤ hiNibble p[1]) (group : Byte) :
    directiveMatches group p = false := by
  unfold directiveMatches
  split
  case h_4 => rfl
  all_goals omega

/-- Settles O15: the match table of R13, the target byte, and the three commands of `passFrame`. -/
theorem undeliveredFrames : Obligations.UndeliveredFrames := by
  refine ⟨?_, fun _ => rfl, ?_⟩
  · intro group p mode
    refine ⟨fun h => ?_, fun h => ?_, fun h => ?_, fun h => ?_, directiveKind_eq_none_iff p⟩
    · simp [directiveMatches, show hiNibble p[1] = 0 from h]
    · simp [directiveMatches, show hiNibble p[1] = 1 from h]
    · simp [directiveMatches, show hiNibble p[1] = 2 from h]
    · exact directiveMatches_of_unknown h group
  · intro c kind sender payload s hc hrun hrecv hother u
    have hexec : exec c s = .next (passFrame kind sender payload s) := by
      rcases hc with ⟨p, rfl, rfl, rfl⟩ | ⟨p, rfl, rfl, rfl, hdrop⟩ | ⟨p, rfl, rfl, rfl, htarget⟩
      · rfl
      · change execDirectiveDropped sender p s = _
        rw [execDirectiveDropped, if_neg]
        · rfl
        · rintro ⟨hmatch, hkind⟩
          rcases hdrop with h | h
          · exact absurd (hmatch.symm.trans h) (by decide)
          · exact hkind h
      · change execQueryDropped sender p s = _
        rw [execQueryDropped, if_neg htarget]
        rfl
    rw [passFrame_of_other hrun hrecv hother] at hexec
    exact ⟨_, hexec, finishLink_spec s u⟩

/-! ## Queries -/

/-- The places of the load list, counted by kind (Table 38). -/
theorem placeBodies_length {s : State} (hrun : s.start.running = true) (h : ShapeOk s) :
    (placeBodies s).length = 6 + 2 * s.start.config.doorCount + s.start.config.heat.stages.length := by
  have hdocks := h.docks hrun
  have hdoors := h.doors hrun
  have hstages := h.stages hrun
  have hcurtains : s.cfg.doors.curtains.length = s.cfg.doorCount := rfl
  have hchannels := h.channels
  have hconfigs := h.channelConfigs
  have hratings := h.doorConfigs
  simp only [placeBodies, List.length_append, List.length_zipWith, List.length_cons, List.length_nil, hdocks, hdoors, hstages,
    hcurtains, hchannels, hconfigs, hratings, Nat.min_self]
  simp only [State.cfg]
  omega

/-- Which record kinds and indices name a record (Table 45). -/
theorem recordBody_isSome {s : State} (hrun : s.start.running = true) (h : ShapeOk s) (kind index : Nat) :
    (recordBody kind index s).isSome = true ↔
      (kind = 0 ∧ index = 0) ∨ (kind = 1 ∧ index ≤ 31) ∨ (kind = 2 ∧ index ≤ s.start.config.doorCount) ∨
        (kind = 3 ∧ 1 ≤ index ∧ index ≤ s.start.config.doorCount) ∨ (kind = 4 ∧ index ≤ 2) ∨
        (kind = 5 ∧ index ≤ 6 + 2 * s.start.config.doorCount + s.start.config.heat.stages.length) := by
  have hdoors : s.doors.records.length = s.start.config.doorCount := h.doors hrun
  have hplaces := placeBodies_length hrun h
  match kind with
  | 0 => by_cases hi : index = 0 <;> simp [recordBody, hi]
  | 1 =>
    by_cases hi : index < 32 <;> simp [recordBody, hi]
    · exact Nat.le_of_lt_succ hi
    · exact Nat.not_lt.mp hi
  | 2 =>
    by_cases hi : index = 0 <;> simp [recordBody, hi, hdoors]
    omega
  | 3 =>
    by_cases hi : index = 0 <;> simp [recordBody, hi, hdoors]
    omega
  | 4 =>
    match index with
    | 0 | 1 | 2 => simp [recordBody, stackOfIndex]
    | n + 3 => simp [recordBody, stackOfIndex]
  | 5 =>
    by_cases hi : index = 0 <;> simp [recordBody, hi, hplaces]
    omega
  | n + 6 => simp [recordBody]

/-- A query for the own number that asks for its row's record kind is answered (R14, R178). -/
theorem takeQuery_of_own {row : Nat} {sender : Station} {p : Vector Byte 3} {s : State} (hrun : s.start.running = true)
    (hrecv : s.line.engine = .receive) (hother : sender.toNat ≠ s.start.strapped)
    (htarget : queryTarget p = s.start.strapped) (hasks : p[1].toNat = row ∨ 6 ≤ p[1].toNat) :
    takeQuery row sender p s = finishLink s (answerQuery sender p (heard kindQuery sender p.toList s)) := by
  have hfits : asksFor row p = true := by simpa [asksFor] using hasks
  rw [takeQuery, if_pos hfits, if_pos htarget, takeFrame_of_other hrun hrecv hother]

/-- The REPLY to a query (R178). -/
theorem answerTo_eq (sender : Station) (p : Vector Byte 3) (s : State) : answerTo sender p s =
    .reply sender p[1] p[2] (recordBody p[1].toNat p[2].toNat s).isSome
      ((recordBody p[1].toNat p[2].toNat s).getD []) := by
  unfold answerTo
  cases recordBody p[1].toNat p[2].toNat s <;> rfl

/-- What the transmit queue makes of a REPLY: it renews, replaces, or joins (R17). -/
theorem insertSingle_reply (requester : Station) (kind index : Byte) (ok : Bool) (body : List Byte) (q : List Slot) :
    insertSingle (.reply requester kind index ok body) q =
      if ∃ x ∈ q, kindOf x.content = 6 then
        q.map fun x =>
          if kindOf x.content = 6 then
            if x.sending = none then { x with content := .reply requester kind index ok body }
            else { x with renewed := some (.reply requester kind index ok body) }
          else x
      else q ++ [{ content := .reply requester kind index ok body, sending := none, renewed := none }] := by
  have hkind : ∀ x, Slot.isKind (kindOf (.reply requester kind index ok body)) x = true ↔ kindOf x.content = 6 :=
    fun x => isKind_iff 6 x
  simp only [insertSingle, List.any_eq_true, hkind, renewSlot_eq]
  rfl

/-- Settles O26: Table 45 by `recordBody_isSome`, and the REPLY of `answerTo_eq` offered to the queue. -/
theorem queriesAnswered : Obligations.QueriesAnswered := by
  refine ⟨fun s kind index hrun hshape => recordBody_isSome hrun hshape kind index, ?_⟩
  intro c s sender p hrun hrecv hother htarget hc u record reply queue v
  have hexec : exec c s = .next (finishLink s (answerQuery sender p u)) := by
    have hrow : ∀ row, p[1].toNat = row ∨ 6 ≤ p[1].toNat →
        takeQuery row sender p s = finishLink s (answerQuery sender p u) :=
      fun row => takeQuery_of_own hrun hrecv hother htarget
    rcases hc with ⟨rfl, h⟩ | ⟨rfl, h⟩ | ⟨rfl, h⟩ | ⟨rfl, h⟩ | ⟨rfl, h⟩ | ⟨rfl, h⟩
    · exact congrArg Host.Outcome.next (hrow 0 h)
    · exact congrArg Host.Outcome.next (hrow 1 h)
    · exact congrArg Host.Outcome.next (hrow 2 h)
    · exact congrArg Host.Outcome.next (hrow 3 h)
    · exact congrArg Host.Outcome.next (hrow 4 h)
    · exact congrArg Host.Outcome.next (hrow 5 h)
  have hv : answerQuery sender p u = v := by
    rw [answerQuery, answerTo_eq]
    by_cases hs : u.view.link = .silent
    · rw [offer_of_silent hs]
      simp only [v, queue, if_pos hs]
    · rw [offer_of_open hs, insertBulletin, insertSingle_reply]
      simp only [v, queue, if_neg hs]
      rfl
  rw [hv] at hexec
  exact ⟨_, hexec, finishLink_spec s v⟩

end Sys2Proof.Machine
end

section
/-! SUPPORT. What the commands of the other blocks do to the line side: they offer bulletins to the transmit queue, on a running
station, and nothing else (R16 to R20). -/

namespace Sys2Proof.Machine

/-! ## Bulletins offered, and nothing else -/

/-- `t` has the line side of `s`: the line engine, the link state, the silent causes, the timebase state. -/
structure SameLine (s t : State) : Prop where
  running : t.start.running = s.start.running
  line : t.line = s.line
  link : t.view.link = s.view.link
  causes : t.view.causes = s.view.causes
  timebase : t.view.timebaseLost = s.view.timebaseLost

theorem SameLine.refl (s : State) : SameLine s s := ⟨rfl, rfl, rfl, rfl, rfl⟩

theorem SameLine.trans {s t u : State} (h : SameLine s t) (k : SameLine t u) : SameLine s u :=
  ⟨k.running.trans h.running, k.line.trans h.line, k.link.trans h.link, k.causes.trans h.causes, k.timebase.trans h.timebase⟩

/-- `t` follows `s` by offers to the transmit queue of a running station, and by changes outside the line side. -/
inductive OnlyOffers (s : State) : State → Prop
  | refl : OnlyOffers s s
  | same {t u : State} : OnlyOffers s t → SameLine t u → OnlyOffers s u
  | offer {t : State} (b : Bulletin) : OnlyOffers s t → t.start.running = true → OnlyOffers s (offer b t)

namespace OnlyOffers

variable {s t u : State}

theorem of_same (h : SameLine s t) : OnlyOffers s t := .same .refl h

theorem trans (h : OnlyOffers s t) (k : OnlyOffers t u) : OnlyOffers s u := by
  induction k with
  | refl => exact h
  | same _ hsame ih => exact ih.same hsame
  | offer b _ hrun ih => exact ih.offer b hrun

theorem running (h : OnlyOffers s t) : t.start.running = s.start.running := by
  induction h with
  | refl => rfl
  | same _ hsame ih => exact hsame.running.trans ih
  | offer b _ _ ih => rw [offer_start, ih]

/-- No offer touches the transmit failure run (R21). -/
theorem failures (h : OnlyOffers s t) : t.line.failures = s.line.failures := by
  induction h with
  | refl => rfl
  | same _ hsame ih => rw [hsame.line, ih]
  | offer b _ _ ih => rw [offer_failures, ih]

end OnlyOffers

/-- The end of an event offers the summaries, and touches nothing else of the line side (R149). -/
theorem onlyOffers_finish {s : State} (hrun : s.start.running = true) (before : State) (work : Work) :
    OnlyOffers s (finish before work s) := by
  have h := finish_frame before work s
  generalize finish before work s = t at h ⊢
  have hline := h.line
  split at hline
  · rename_i hopen
    have hlink : s.view.link ≠ .silent := by
      rw [← h.view]
      exact hopen.1
    refine (OnlyOffers.offer (.alarm t.alarms.active t.alarms.latched) .refl hrun).same ⟨?_, ?_, ?_, ?_, ?_⟩
    · rw [offer_start, h.start]
    · rw [offer_of_open hlink, hline]
      rfl
    · rw [offer_view, h.view]
    · rw [offer_view, h.view]
    · rw [offer_view, h.view]
  · exact .of_same ⟨by rw [h.start], hline, by rw [h.view], by rw [h.view], by rw [h.view]⟩

/-- An event: a change outside the line side with its offers, then its end. -/
theorem OnlyOffers.event {s u : State} (hrun : s.start.running = true) (h : OnlyOffers s u) (before : State) (work : Work) :
    OnlyOffers s (finish before work u) :=
  h.trans (onlyOffers_finish (h.running.trans hrun) before work)

theorem onlyOffers_finishLink {s : State} (hrun : s.start.running = true) (before : State) :
    OnlyOffers s (finishLink before s) := by
  rcases finishLink_cases before s with h | h
  · rw [h]
    exact .refl
  · rw [h]
    exact onlyOffers_finish hrun before .none

/-! ## The other blocks' operations -/

theorem sameLine_measure (s : State) : SameLine s (measure s) := by
  constructor <;> simp [measure]

theorem ShiftFrame.sameLine {s t : State} (h : ShiftFrame s t) : SameLine s t :=
  ⟨by rw [h.start], h.line, by rw [h.view], by rw [h.view], by rw [h.view]⟩

theorem sameLine_setTraffic (s : State) (b : Traffic) : SameLine s (s.setTraffic b) := ⟨rfl, rfl, rfl, rfl, rfl⟩

theorem sameLine_onEntry (n : Nat) (f : PeerEntry → PeerEntry) (s : State) : SameLine s (onEntry n f s) :=
  ⟨rfl, rfl, rfl, rfl, rfl⟩

theorem sameLine_onDoor (d : Fin 8) (f : Door → Door) (s : State) : SameLine s (onDoor d f s) := ⟨rfl, rfl, rfl, rfl, rfl⟩

theorem sameLine_onZone (z : Fin 4) (f : Zone → Zone) (s : State) : SameLine s (onZone z f s) := ⟨rfl, rfl, rfl, rfl, rfl⟩

theorem sameLine_onStackOf (k : StackId) (f : List OverrideEntry → List OverrideEntry) (s : State) :
    SameLine s (onStackOf k f s) := ⟨rfl, rfl, rfl, rfl, rfl⟩

theorem sameLine_onManual (f : Debounced → Debounced) (s : State) : SameLine s (onManual f s) := ⟨rfl, rfl, rfl, rfl, rfl⟩

theorem sameLine_stepRise (i : Fin 4) (s : State) : SameLine s (stepRise i s) := ⟨rfl, rfl, rfl, rfl, rfl⟩

theorem sameLine_takePulse (s : State) : SameLine s (takePulse s) := ⟨rfl, rfl, rfl, rfl, rfl⟩

theorem sameLine_onFan (n : Fin 2) (f : FanConfig → Fan → Fan) (s : State) : SameLine s (onFan n f s) := by
  unfold onFan
  split
  · exact ⟨rfl, rfl, rfl, rfl, rfl⟩
  · exact ⟨rfl, rfl, rfl, rfl, rfl⟩

theorem sameLine_sampleGas (g : Gas) (value : Option Nat) (s : State) : SameLine s (sampleGas g value s) := by
  cases g <;> exact ⟨rfl, rfl, rfl, rfl, rfl⟩

theorem sameLine_lowerLost (n : Nat) (s : State) : SameLine s (lowerLost n s) := by
  unfold lowerLost
  split
  · exact ⟨rfl, rfl, rfl, rfl, rfl⟩
  · exact .refl s

theorem sameLine_balance (s : State) : SameLine s (balance s) := by
  unfold balance
  split
  · exact ⟨rfl, rfl, rfl, rfl, rfl⟩
  · exact .refl s

section Offering

variable {s : State} (hrun : s.start.running = true)

include hrun

/-- The beacon schedule offers a BEACON, but for SILENT (R31). -/
theorem onlyOffers_scheduleBeacon : OnlyOffers s (scheduleBeacon s) := by
  unfold scheduleBeacon
  dsimp only
  split
  · exact .of_same ⟨rfl, rfl, rfl, rfl, rfl⟩
  · exact .offer _ (.of_same ⟨rfl, rfl, rfl, rfl, rfl⟩) hrun

/-- A press originates, and offers a SHIFT, outside lockout (R46). -/
theorem onlyOffers_press : OnlyOffers s (press s) := by
  unfold press originate
  split
  · have hadopt := (adopt_frame (originEpoch s.shift.epoch) (currentPage s).next s).sameLine
    exact .offer _ (.of_same hadopt) (hadopt.running.trans hrun)
  · exact .refl

/-- A crossing offers a HANDOFF (R64, R65). -/
theorem onlyOffers_takeCrossing (dir : Travel) : OnlyOffers s (takeCrossing dir s) :=
  .same (.offer _ (.of_same (t := (s.setTraffic { s.traffic with gateCount := s.traffic.gateCount + 1 }).setShift
    { s.shift with crossings := min 65535 (s.shift.crossings + 1) }) ⟨rfl, rfl, rfl, rfl, rfl⟩) hrun) ⟨rfl, rfl, rfl, rfl, rfl⟩

theorem onlyOffers_endPassage : OnlyOffers s (endPassage s) := by
  unfold endPassage
  dsimp only
  split
  · exact (onlyOffers_takeCrossing hrun _).same ⟨rfl, rfl, rfl, rfl, rfl⟩
  · exact .of_same ⟨rfl, rfl, rfl, rfl, rfl⟩

theorem onlyOffers_beamChange (beam : Beam) : OnlyOffers s (beamChange beam s) := by
  unfold beamChange
  dsimp only
  (repeat' split)
  · exact (OnlyOffers.of_same (sameLine_setTraffic s _)).trans (onlyOffers_endPassage hrun)
  · exact .of_same ⟨rfl, rfl, rfl, rfl, rfl⟩
  · exact .of_same ⟨rfl, rfl, rfl, rfl, rfl⟩
  · exact .of_same ⟨rfl, rfl, rfl, rfl, rfl⟩

end Offering

/-! ## Their commands -/

/-- A command that offers bulletins at most. -/
def Quiet (s : State) (a : Answer) : Prop := ∃ t, a = .next t ∧ OnlyOffers s t

/-- A command whose event occurs on a running station only (assumption log 2). -/
theorem Quiet.guarded {c : Prop} [Decidable c] {s t : State} (hidle : s.start.running = false → ¬c)
    (h : s.start.running = true → OnlyOffers s t) : Quiet s (.next (if c then t else s)) := by
  refine ⟨_, rfl, ?_⟩
  split
  · rename_i hc
    exact h (Bool.eq_true_of_not_eq_false fun hrun => hidle hrun hc)
  · exact .refl

/-- A command whose event is a change outside the line side with its end. -/
theorem Quiet.event {c : Prop} [Decidable c] {s u : State} {work : Work} (hidle : s.start.running = false → ¬c)
    (h : SameLine s u) : Quiet s (.next (if c then finish s work u else s)) :=
  .guarded hidle fun hrun => (OnlyOffers.of_same h).event hrun s work

/-- A command whose event is a change outside the line side alone. -/
theorem Quiet.change {c : Prop} [Decidable c] {s u : State} (hidle : s.start.running = false → ¬c)
    (h : SameLine s u) : Quiet s (.next (if c then u else s)) :=
  .guarded hidle fun _ => .of_same h

/-- Does a command act on the line side itself: the commands of the line engine and of the link state, the starts, and every
accepted frame? -/
def actsOnLine (c : Instr) : Bool :=
  match c with
  | .powerOnReset | .startSequenceEnd _ | .lineIdle _ | .transmitAttemptStart | .lostArbitration _ | .bitError _ | .abortEnd
  | .transmissionComplete | .frameDiscarded _ | .startDelimiter | .listenTimerExpiry | .isolationTimerExpiry | .timebaseLost
  | .timebaseRecovered => true
  | c => c.frame.isSome

section Inputs

variable (s : State)

theorem quiet_shiftInputChange (pressed : Bool) (event : InputEvent) : Quiet s (exec (.shiftInputChange pressed event) s) := by
  refine .guarded (fun h => by simp [shiftInputAdmits, h]) fun hrun => ?_
  cases event with
  | raw => exact .of_same ⟨rfl, rfl, rfl, rfl, rfl⟩
  | stable =>
    have htake : SameLine s (onShiftInput (Debounced.take pressed) s) := ⟨rfl, rfl, rfl, rfl, rfl⟩
    dsimp only
    split
    · exact ((OnlyOffers.of_same htake).trans (onlyOffers_press hrun)).event hrun _ _
    · exact .of_same htake

theorem quiet_manualAsserted (event : InputEvent) : Quiet s (exec (.manualAsserted event) s) := by
  refine .guarded (fun h => by simp [manualAdmits, h]) fun hrun => ?_
  cases event with
  | raw => exact .of_same (sameLine_onManual _ s)
  | stable => exact (OnlyOffers.of_same ((sameLine_onManual _ s).trans (sameLine_onStackOf _ _ _))).event hrun _ _

theorem quiet_manualReleased (event : InputEvent) : Quiet s (exec (.manualReleased event) s) := by
  refine .guarded (fun h => by simp [manualAdmits, h]) fun hrun => ?_
  cases event with
  | raw => exact .of_same (sameLine_onManual _ s)
  | stable => exact (OnlyOffers.of_same ((sameLine_onManual _ s).trans (sameLine_onStackOf _ _ _))).event hrun _ _

theorem quiet_doorContactChange (d : Fin 8) (isOpen : Bool) (event : InputEvent) :
    Quiet s (exec (.doorContactChange d isOpen event) s) := by
  refine .guarded (fun h => by simp [contactAdmits, doorTest, h]) fun hrun => ?_
  cases event with
  | raw => exact .of_same (sameLine_onDoor d _ s)
  | stable => exact (OnlyOffers.of_same (sameLine_onDoor d _ s)).event hrun _ _

theorem quiet_doorTrailerChange (d : Fin 8) (isPresent : Bool) (event : InputEvent) :
    Quiet s (exec (.doorTrailerChange d isPresent event) s) := by
  refine .guarded (fun h => by simp [trailerAdmits, doorTest, h]) fun hrun => ?_
  cases event with
  | raw => exact .of_same (sameLine_onDoor d _ s)
  | stable => exact (OnlyOffers.of_same (sameLine_onDoor d _ s)).event hrun _ _

end Inputs

/-- The commands of the other blocks offer bulletins at most. -/
theorem exec_quiet {c : Instr} (hc : actsOnLine c = false) (s : State) : Quiet s (exec c s) := by
  cases c
  case beaconScheduling =>
    exact .guarded (fun h => by simp [beaconDue, h]) fun hrun =>
      ((onlyOffers_scheduleBeacon hrun).same (sameLine_balance _)).event hrun _ _
  case entryStale n => exact .event (fun h => by simp [staleDue, h]) (sameLine_onEntry _ _ s)
  case entryLost n =>
    exact .event (fun h => by simp [lostDue, h]) ((sameLine_onEntry _ _ s).trans (sameLine_lowerLost _ _))
  case shiftInputChange pressed event => exact quiet_shiftInputChange s pressed event
  case changeoverTimerExpiry => exact .event (fun h => by simp [changeoverDue, h]) ⟨rfl, rfl, rfl, rfl, rfl⟩
  case lockoutTimerExpiry => exact .change (fun h => by simp [lockoutDue, h]) ⟨rfl, rfl, rfl, rfl, rfl⟩
  case gateBeamChange beam =>
    exact .guarded (fun h => by simp [gateSampled, h]) fun hrun => (onlyOffers_beamChange hrun beam).event hrun _ _
  case invalidTransition => exact .event (fun h => by simp [gateSampled, h]) ⟨rfl, rfl, rfl, rfl, rfl⟩
  case gateFaultClear => exact .event (fun h => by simp [gateClearDue, h]) ⟨rfl, rfl, rfl, rfl, rfl⟩
  case presenceAsserted z => exact .event (fun h => by simp [h]) (sameLine_onZone z _ s)
  case presenceReleased z => exact .change (fun h => by simp [h]) (sameLine_onZone z _ s)
  case zoneHoldExpiry z => exact .event (fun h => by simp [zoneDue, h]) (sameLine_onZone z _ s)
  case vacancyCorrection => exact .event (fun h => by simp [vacancyDue, h]) ⟨rfl, rfl, rfl, rfl, rfl⟩
  case leadInTimerExpiry => exact .event (fun h => by simp [leadInDue, h]) ⟨rfl, rfl, rfl, rfl, rfl⟩
  case vacatingTimerExpiry => exact .event (fun h => by simp [vacatingDue, h]) ⟨rfl, rfl, rfl, rfl, rfl⟩
  case levelRiseStep i =>
    exact .change (fun h => by simp [riseStepDue, h]) ((sameLine_stepRise i s).trans (sameLine_measure _))
  case manualAsserted event => exact quiet_manualAsserted s event
  case manualReleased event => exact quiet_manualReleased s event
  case doorContactChange d isOpen event => exact quiet_doorContactChange s d isOpen event
  case doorTrailerChange d isPresent event => exact quiet_doorTrailerChange s d isPresent event
  case doorHoldExpiry d => exact .event (fun h => by simp [doorHoldDue, doorTest, h]) (sameLine_onDoor d _ s)
  case doorFaultClear d => exact .event (fun h => by simp [doorClearDue, doorTest, h]) (sameLine_onDoor d _ s)
  case boostRecoveryExpiry => exact .event (fun h => by simp [boostDue, h]) ⟨rfl, rfl, rfl, rfl, rfl⟩
  case temperatureReading value => exact .event (fun h => by simp [readingDue, h]) ⟨rfl, rfl, rfl, rfl, rfl⟩
  case stageMinOnExpiry k => exact .event (fun h => by simp [stageTest, h]) (.refl s)
  case stageMinOffExpiry k => exact .event (fun h => by simp [stageTest, h]) (.refl s)
  case gasSample g value => exact .event (fun h => by simp [sampleDue, h]) (sameLine_sampleGas g value s)
  case coastTimerExpiry n =>
    exact .change (fun h => by simp [coastDue, h]) ((sameLine_onFan n _ s).trans (sameLine_measure _))
  case rampTimerExpiry n =>
    exact .change (fun h => by simp [rampDue, h]) ((sameLine_onFan n _ s).trans (sameLine_measure _))
  case overrideExpiry k source origin => exact .event (fun h => by simp [expiryDue, h]) (sameLine_onStackOf k _ s)
  case pendingIncreaseExpiry => exact .event (fun h => by simp [pendingDue, h]) ⟨rfl, rfl, rfl, rfl, rfl⟩
  case meterPulse =>
    exact .change (fun h => by simp [pulseAccepted, h]) ((sameLine_takePulse s).trans (sameLine_measure _))
  case meterCheck => exact .event (fun h => by simp [checkDue, h]) ⟨rfl, rfl, rfl, rfl, rfl⟩
  case doorSettlingEnds d isOpen isPresent =>
    exact .event (fun h => by simp [settlingDue, doorTest, h]) (sameLine_onDoor d _ s)
  case openSecondsAdvance d => exact .change (fun h => by simp [openSecondsDue, doorTest, h]) (sameLine_onDoor d _ s)
  all_goals exact absurd hc (by simp [actsOnLine, Instr.frame])

end Sys2Proof.Machine
end

section
/-! SUPPORT. The accepted frame's command as one of three outcomes: nothing, a frame dropped under the own number, or a frame
heard and then offers at most; a matched RESTART stands apart (R12 to R15). -/

namespace Sys2Proof.Machine

/-! ## Deliveries -/

section Deliver

variable (sender : Station) (s : State)

theorem sameLine_deliverBeacon (p : Vector Byte 24) : SameLine s (deliverBeacon sender p s) := by
  have hshift : ∀ t, SameLine t (beaconShift (beaconOf p) t) := fun t => by
    unfold beaconShift
    split
    · exact (adoptionTest_frame _ _ t).sameLine
    · exact .refl t
  have hgate : ∀ t, SameLine t (beaconGate sender (beaconOf p) t) := fun t => by
    unfold beaconGate
    split
    · exact sameLine_setTraffic t _
    · exact .refl t
  unfold deliverBeacon
  split
  · exact (sameLine_onEntry _ _ s).trans ((hshift _).trans (hgate _))
  · exact .refl s

theorem sameLine_deliverHandoff (p : Vector Byte 4) : SameLine s (deliverHandoff sender p s) := by
  have hcount : ∀ h t, SameLine t (handoffCount sender h t) := fun h t => by
    unfold handoffCount
    split
    · exact sameLine_setTraffic t _
    · exact .refl t
  have hlead : ∀ h t, SameLine t (handoffLeadIn sender h t) := fun h t => by
    unfold handoffLeadIn
    split
    · exact ⟨rfl, rfl, rfl, rfl, rfl⟩
    · exact .refl t
  unfold deliverHandoff
  split
  · exact (hcount _ s).trans (hlead _ _)
  · exact .refl s

theorem sameLine_deliverShift (p : Vector Byte 2) : SameLine s (deliverShift p s) := by
  unfold deliverShift
  split
  · exact (adoptionTest_frame _ _ s).sameLine
  · exact .refl s

theorem sameLine_deliverAlarm (p : Vector Byte 4) : SameLine s (deliverAlarm sender p s) := by
  unfold deliverAlarm
  split
  · exact sameLine_onEntry _ _ s
  · exact .refl s

theorem sameLine_placeEntry (kind : DirectiveKind) (k : StackId) (p : Vector Byte 9) :
    SameLine s (placeEntry kind k sender p s) := by
  unfold placeEntry
  split
  · exact sameLine_onStackOf k _ s
  · exact .refl s

theorem sameLine_releaseEntries (p : Vector Byte 9) : SameLine s (releaseEntries sender p s) := ⟨rfl, rfl, rfl, rfl, rfl⟩

theorem sameLine_acknowledgeAlarms : SameLine s (acknowledgeAlarms s) := ⟨rfl, rfl, rfl, rfl, rfl⟩

end Deliver

/-! ## The frame's outcomes -/

/-- What a command that brings a frame answers in state `s`. -/
inductive FrameOutcome (s : State) : State → Prop
  /-- No such event, and nothing happens (assumption log 2). -/
  | none : FrameOutcome s s
  /-- A frame under the own number (R15). -/
  | own (kind : Nat) (sender : Station) (payload : List Byte) (h : mayAccept s = true) :
    FrameOutcome s (finish s .none (addCause .duplicate (heard kind sender payload s)))
  /-- A frame heard, and what its delivery and the end of its event offer (R12). -/
  | heard (kind : Nat) (sender : Station) (payload : List Byte) {t : State} (h : mayAccept s = true)
    (ht : OnlyOffers (heard kind sender payload s) t) : FrameOutcome s t

/-- A frame is taken with a delivery and a close that offer at most. -/
theorem frameOutcome_takeFrame {s : State} (kind : Nat) (sender : Station) (payload : List Byte) {deliver : State → State}
    {close : State → State → State}
    (h : ∀ u, u.start.running = true → OnlyOffers u (close s (deliver u))) :
    FrameOutcome s (takeFrame kind sender payload deliver close s) := by
  rcases takeFrame_cases kind sender payload deliver close s with ⟨-, ht⟩ | ⟨hmay, -, ht⟩ | ⟨hmay, -, ht⟩
  · rw [ht]
    exact .none
  · rw [ht]
    exact .own kind sender payload hmay
  · rw [ht]
    have hrun : (heard kind sender payload s).start.running = true := by
      rw [(heard_frame kind sender payload s).start]
      exact (Bool.and_eq_true_iff.mp hmay).1
    exact .heard kind sender payload hmay (h _ hrun)

/-- A frame whose delivery changes nothing of the line side, and whose event then ends (R12). -/
theorem frameOutcome_event {s : State} (kind : Nat) (sender : Station) (payload : List Byte) {deliver : State → State}
    (h : ∀ u, SameLine u (deliver u)) :
    FrameOutcome s (takeFrame kind sender payload deliver (fun b t => finish b .none t) s) :=
  frameOutcome_takeFrame kind sender payload fun u hrun => (OnlyOffers.of_same (h u)).event hrun s .none

theorem frameOutcome_passFrame (kind : Nat) (sender : Station) (payload : List Byte) (s : State) :
    FrameOutcome s (passFrame kind sender payload s) :=
  frameOutcome_takeFrame kind sender payload fun _ hrun => onlyOffers_finishLink hrun s

theorem frameOutcome_takeDirective (kind : DirectiveKind) (sender : Station) (p : Vector Byte 9) {deliver : State → State}
    (s : State) (h : ∀ u, SameLine u (deliver u)) : FrameOutcome s (takeDirective kind sender p deliver s) := by
  unfold takeDirective
  (repeat' split)
  · exact frameOutcome_event _ _ _ h
  · exact frameOutcome_passFrame _ _ _ s
  · exact .none

theorem frameOutcome_takeQuery (row : Nat) (sender : Station) (p : Vector Byte 3) (s : State) :
    FrameOutcome s (takeQuery row sender p s) := by
  unfold takeQuery
  (repeat' split)
  · exact frameOutcome_takeFrame _ _ _ fun u hrun =>
      (OnlyOffers.offer _ .refl hrun).trans (onlyOffers_finishLink (by rw [offer_start]; exact hrun) s)
  · exact frameOutcome_passFrame _ _ _ s
  · exact .none

/-- Every command that brings a frame, but RESTART, has one of the three outcomes. -/
theorem exec_frameOutcome {c : Instr} (hc : c.frame.isSome = true) (hrestart : ∀ st p, c ≠ .restart st p) (s : State) :
    ∃ t, exec c s = .next t ∧ FrameOutcome s t := by
  cases c
  case beaconReceived st p =>
    refine ⟨_, rfl, frameOutcome_takeFrame _ _ _ fun u hrun => ?_⟩
    have hdeliver := OnlyOffers.of_same (sameLine_deliverBeacon st u p)
    have hrun' := hdeliver.running.trans hrun
    unfold closeBeacon
    split
    · exact hdeliver.trans (onlyOffers_finish hrun' s .recompute)
    · exact hdeliver.trans (onlyOffers_finishLink hrun' s)
  case handoffReceived st p => exact ⟨_, rfl, frameOutcome_event _ _ _ fun u => sameLine_deliverHandoff st u p⟩
  case shiftReceived st p => exact ⟨_, rfl, frameOutcome_event _ _ _ fun u => sameLine_deliverShift u p⟩
  case alarmReceived st p => exact ⟨_, rfl, frameOutcome_event _ _ _ fun u => sameLine_deliverAlarm st u p⟩
  case replyReceived st p => exact ⟨_, rfl, frameOutcome_passFrame _ _ _ s⟩
  case lightSet | heatHold | heatSetpoint | heatBoost | ventPurge | ventStop =>
    exact ⟨_, rfl, frameOutcome_takeDirective _ _ _ s fun u => sameLine_placeEntry _ u _ _ _⟩
  case release st p => exact ⟨_, rfl, frameOutcome_takeDirective _ _ _ s fun u => sameLine_releaseEntries st u p⟩
  case alarmAck st p => exact ⟨_, rfl, frameOutcome_takeDirective _ _ _ s fun u => sameLine_acknowledgeAlarms u⟩
  case restart st p => exact absurd rfl (hrestart st p)
  case queryStatus | queryPeer | queryShift | queryDoor | queryOverrides | queryLoads =>
    exact ⟨_, rfl, frameOutcome_takeQuery _ _ _ s⟩
  case directiveDropped st p =>
    refine ⟨_, rfl, ?_⟩
    split
    · exact .none
    · exact frameOutcome_passFrame _ _ _ s
  case queryDropped st p =>
    refine ⟨_, rfl, ?_⟩
    split
    · exact .none
    · exact frameOutcome_passFrame _ _ _ s
  all_goals exact absurd hc (by simp [Instr.frame])

/-- A RESTART has one of the three outcomes, or begins a start sequence after the frame (R148, R177). -/
theorem execRestart_outcome (sender : Station) (p : Vector Byte 9) (s : State) :
    ∃ t, exec (.restart sender p) s = .next t ∧
      (FrameOutcome s t ∨ ∃ u, t = beginRestart u ∧ u.view.timebaseLost = s.view.timebaseLost ∧
        u.view.causes = s.view.causes) := by
  refine ⟨_, rfl, ?_⟩
  (repeat' split)
  · rcases takeFrame_cases kindDirective sender p.toList beginRestart (fun _ t => t) s with
      ⟨-, ht⟩ | ⟨hmay, -, ht⟩ | ⟨-, -, ht⟩
    · rw [ht]
      exact .inl .none
    · rw [ht]
      exact .inl (.own _ _ _ hmay)
    · have hview := (heard_frame kindDirective sender p.toList s).view
      exact .inr ⟨_, ht, by rw [hview], by rw [hview]⟩
  · exact .inl (frameOutcome_passFrame _ _ _ s)
  · exact .inl .none

end Sys2Proof.Machine
end

section
/-! SUPPORT. The transmit failure run, command by command (R21). -/

namespace Sys2Proof.Machine

theorem finish_failures (before : State) (work : Work) (s : State) : (finish before work s).line.failures = s.line.failures := by
  rw [(finish_frame before work s).line_eq]

theorem addCause_failures (cause : SilentCause) (s : State) : (addCause cause s).line.failures = s.line.failures := by
  unfold addCause
  dsimp only
  split <;> rfl

theorem removeCause_line (cause : SilentCause) (s : State) : (removeCause cause s).line = s.line := by
  unfold removeCause
  dsimp only
  split <;> rfl

theorem endListen_line (s : State) : (endListen s).line = s.line := by
  unfold endListen
  split <;> rfl

theorem resetLink_line (s : State) : (resetLink s).line = s.line := by
  unfold resetLink
  split <;> rfl

theorem completeLink_line (s : State) : (completeLink s).line = s.line := by
  unfold completeLink
  split <;> rfl

theorem holdLine_failures (l : Line) : (holdLine l).failures = l.failures := by
  unfold holdLine
  split <;> rfl

theorem releaseLine_failures (l : Line) : (releaseLine l).failures = l.failures := by
  unfold releaseLine
  split <;> rfl

/-- A command that leaves the run. -/
def KeepsRun (s : State) (a : Answer) : Prop := ∃ t, a = .next t ∧ t.line.failures = s.line.failures

theorem Quiet.keepsRun {s : State} {a : Answer} (h : Quiet s a) : KeepsRun s a := by
  obtain ⟨t, ha, ht⟩ := h
  exact ⟨t, ha, ht.failures⟩

/-- A command whose one change leaves the run. -/
theorem KeepsRun.guarded {c : Prop} [Decidable c] {s t : State} (h : t.line.failures = s.line.failures) :
    KeepsRun s (.next (if c then t else s)) := by
  refine ⟨_, rfl, ?_⟩
  split
  · exact h
  · rfl

/-- No accepted frame touches the run (R21). -/
theorem FrameOutcome.failures {s t : State} (h : FrameOutcome s t) : t.line.failures = s.line.failures := by
  cases h with
  | none => rfl
  | own kind sender payload => rw [finish_failures, addCause_failures, (heard_frame kind sender payload s).queue]
  | heard kind sender payload _ ht => rw [ht.failures, (heard_frame kind sender payload s).queue]

/-! ## The commands that touch it -/

/-- The run after an abort that ends (R21, R22, R23). -/
theorem endAbort_run (s : State) :
    if s.view.timebaseLost = false then
      if s.line.failures + 1 < 16 then (endAbort s).line.failures = s.line.failures + 1
      else (endAbort s).line.failures = 0 ∧ (endAbort s).line.engine = .hunt ∧ (endAbort s).line.lineFault = true
    else (endAbort s).line.failures = s.line.failures := by
  cases hbase : s.view.timebaseLost with
  | true =>
    rw [endAbort_of_lost hbase]
    rfl
  | false =>
    rw [if_pos rfl]
    by_cases hcount : s.line.failures + 1 < 16
    · rw [if_pos hcount, endAbort_of_counted hbase hcount]
      rfl
    · have hline := (finish_frame s .none (resetLink (s.setLine (lineReset s.line)))).line_eq
      rw [resetLink_line] at hline
      have hfailures := congrArg Line.failures hline
      have hengine := congrArg Line.engine hline
      have hfault := congrArg Line.lineFault hline
      rw [if_neg hcount, endAbort_of_sixteenth hbase hcount]
      exact ⟨hfailures, hengine, hfault⟩

/-- The run after a completed transmission (R8). -/
theorem completeTransmission_failures (x : Slot) (s : State) : (completeTransmission x s).line.failures = 0 := by
  unfold completeTransmission
  dsimp only
  split
  · rw [finish_failures, completeLink_line]
    rfl
  · rw [completeLink_line]
    rfl

theorem any_inFlight_eq (q : List Slot) : q.any Slot.inFlight = (inFlightSlot q).isSome := by
  rw [inFlightSlot, Bool.eq_iff_iff, List.find?_isSome, List.any_eq_true]

/-- TRANSMISSION_COMPLETE returns the run to 0 where a frame is in flight (R8, R21). -/
theorem execTransmissionComplete_run {s t : State} (hrun : s.start.running = true)
    (h : execTransmissionComplete s = .next t) :
    t.line.failures = if s.line.engine = .send ∧ s.line.queue.any Slot.inFlight = true then 0 else s.line.failures := by
  cases h
  by_cases hsend : s.line.engine = .send
  · cases hx : inFlightSlot s.line.queue <;> simp [hsend, hrun, any_inFlight_eq, hx, completeTransmission_failures]
  · simp [hsend]

/-! ## The commands that leave it -/

theorem execTimebaseLost_keepsRun {s : State} (hrun : s.start.running = true) : KeepsRun s (execTimebaseLost s) := by
  refine ⟨_, rfl, ?_⟩
  rw [if_pos hrun, loseTimebase]
  split
  · rfl
  · rw [finish_failures, addCause_failures]
    exact holdLine_failures s.line

theorem execTimebaseRecovered_keepsRun {s : State} (hrun : s.start.running = true) :
    KeepsRun s (execTimebaseRecovered s) := by
  refine .guarded ?_
  rw [if_pos hrun, recoverTimebase, finish_failures, removeCause_line]
  exact releaseLine_failures s.line

/-- Every other command of a running station leaves the run (R21). -/
theorem exec_keepsRun {c : Instr} (habort : c ≠ .abortEnd) (hcomplete : c ≠ .transmissionComplete)
    (hreset : c ≠ .powerOnReset) (hrestart : ∀ st p, c ≠ .restart st p) {s : State} (hrun : s.start.running = true) :
    KeepsRun s (exec c s) := by
  cases c
  case abortEnd => exact absurd rfl habort
  case transmissionComplete => exact absurd rfl hcomplete
  case powerOnReset => exact absurd rfl hreset
  case restart st p => exact absurd rfl (hrestart st p)
  case startSequenceEnd r => exact ⟨s, by simp only [exec, execStartSequenceEnd, if_pos hrun], rfl⟩
  case lineIdle bits =>
    refine .guarded ?_
    split <;> rfl
  case startDelimiter => exact .guarded (t := s.setLine _) rfl
  case frameDiscarded bits => exact .guarded (t := s.setLine _) rfl
  case transmitAttemptStart =>
    refine .guarded ?_
    split <;> rfl
  case lostArbitration k =>
    refine .guarded ?_
    split
    · split
      · rw [State.setLine_line, loseArbitration_eq]
      · rfl
    · rfl
  case bitError k =>
    refine .guarded ?_
    (repeat' split) <;> rfl
  case listenTimerExpiry => exact .guarded ((finish_failures s .none _).trans (congrArg Line.failures (endListen_line s)))
  case isolationTimerExpiry => exact .guarded (finish_failures s .none (enterIsolated s))
  case timebaseLost => exact execTimebaseLost_keepsRun hrun
  case timebaseRecovered => exact execTimebaseRecovered_keepsRun hrun
  case beaconReceived | handoffReceived | shiftReceived | alarmReceived | replyReceived | lightSet | heatHold | heatSetpoint
      | heatBoost | ventPurge | ventStop | release | alarmAck | queryStatus | queryPeer | queryShift | queryDoor
      | queryOverrides | queryLoads | directiveDropped | queryDropped =>
    obtain ⟨t, ht, hout⟩ := exec_frameOutcome rfl hrestart s
    exact ⟨t, ht, hout.failures⟩
  all_goals exact (exec_quiet rfl s).keepsRun

/-- Settles O11: the abort's end, the completed transmission and the starts by their own lemmas, every other command by
`exec_keepsRun`. -/
theorem transmitFailureRun : Obligations.TransmitFailureRun := by
  intro c s t hrun hexec
  split
  · cases hexec
    have hend := endAbort_run s
    by_cases habort : s.line.engine = .abort
    · simpa only [habort, hrun, and_self, true_and, if_true] using hend
    · simp only [habort, and_false, false_and, if_false]
  · exact execTransmissionComplete_run hrun hexec
  · cases hexec
    rfl
  · rename_i sender p
    obtain ⟨u, hu, hout⟩ := execRestart_outcome sender p s
    cases hu.symm.trans hexec
    rcases hout with h | ⟨v, rfl, -⟩
    · exact .inl h.failures
    · exact .inr ⟨rfl, rfl⟩
  · rename_i habort hcomplete hreset hrestart
    obtain ⟨u, hu, hkept⟩ := exec_keepsRun habort hcomplete hreset hrestart hrun
    cases hu.symm.trans hexec
    exact hkept

end Sys2Proof.Machine
end

section
/-! SUPPORT. The line side stays sound: the transmit queue's limits under every operation on it, then the link state and the
silent causes, then every step (R5, R16, R17, R20, R24, R36). -/

namespace Sys2Proof.Machine

/-! ## A sound queue -/

/-- The part of `QueueOk` that speaks of the queue alone. -/
structure QueueSound (q : List Slot) : Prop where
  handoffs : countKind kindHandoff q ≤ 4
  single : ∀ k, k ≠ kindHandoff → countKind k q ≤ 1
  flight : q.countP Slot.inFlight ≤ 1
  renewal : ∀ x ∈ q, ∀ r, x.renewed = some r → kindOf r = kindOf x.content

/-- No slot of the queue is in flight. -/
def Grounded (q : List Slot) : Prop := ∀ x ∈ q, x.inFlight = false

theorem queueSound_nil : QueueSound [] :=
  ⟨Nat.zero_le _, fun _ _ => Nat.zero_le _, Nat.zero_le _, fun _ h => absurd h List.not_mem_nil⟩

theorem grounded_nil : Grounded [] := fun _ h => absurd h List.not_mem_nil

namespace QueueSound

variable {q q' : List Slot}

/-- Items removed leave the queue sound. -/
theorem sublist (h : QueueSound q) (hsub : q'.Sublist q) : QueueSound q' where
  handoffs := (hsub.countP_le).trans h.handoffs
  single k hk := (hsub.countP_le).trans (h.single k hk)
  flight := (hsub.countP_le).trans h.flight
  renewal x hx := h.renewal x (hsub.subset hx)

/-- Items changed without a change of kind leave the queue sound, where none is put in flight. -/
theorem map {f : Slot → Slot} (h : QueueSound q) (hkind : ∀ x ∈ q, kindOf (f x).content = kindOf x.content)
    (hflight : ∀ x ∈ q, (f x).inFlight = true → x.inFlight = true)
    (hrenew : ∀ x ∈ q, ∀ r, (f x).renewed = some r → kindOf r = kindOf (f x).content) : QueueSound (q.map f) := by
  have hcount : ∀ k, countKind k (q.map f) = countKind k q := fun k => by
    rw [countKind, List.countP_map]
    exact List.countP_congr fun x hx => by simp [Slot.isKind, hkind x hx]
  refine ⟨?_, fun k hk => ?_, ?_, fun y hy => ?_⟩
  · rw [hcount]
    exact h.handoffs
  · rw [hcount]
    exact h.single k hk
  · rw [List.countP_map]
    exact (List.countP_mono_left hflight).trans h.flight
  · obtain ⟨x, hx, rfl⟩ := List.mem_map.mp hy
    exact hrenew x hx

/-- A waiting item joins where its kind has room. -/
theorem append_waiting {b : Bulletin} (h : QueueSound q)
    (hroom : countKind (kindOf b) q < if kindOf b = kindHandoff then 4 else 1) : QueueSound (q ++ [Slot.waiting b]) := by
  have hcount : ∀ k, countKind k (q ++ [Slot.waiting b]) = countKind k q + if kindOf b = k then 1 else 0 := fun k => by
    by_cases hk : kindOf b = k <;> simp [countKind, Slot.isKind, hk]
  refine ⟨?_, fun k hk => ?_, ?_, fun x hx => ?_⟩
  · have := h.handoffs
    rw [hcount]
    by_cases hb : kindOf b = kindHandoff
    · rw [hb, if_pos rfl] at hroom
      rw [if_pos hb]
      omega
    · rwa [if_neg hb]
  · have := h.single k hk
    rw [hcount]
    by_cases hb : kindOf b = k
    · rw [hb, if_neg hk] at hroom
      rw [if_pos hb]
      omega
    · rwa [if_neg hb]
  · simpa [List.countP_append] using h.flight
  · rcases List.mem_append.mp hx with hx | hx
    · exact h.renewal x hx
    · rw [List.mem_singleton.mp hx]
      simp

/-! ## Insertions -/

theorem renewSlot_kind {b : Bulletin} {x : Slot} (h : kindOf x.content = kindOf b) :
    kindOf (renewSlot b x).content = kindOf x.content := by
  rw [renewSlot]
  split
  · rfl
  · exact h.symm

theorem renewSlot_inFlight (b : Bulletin) (x : Slot) : (renewSlot b x).inFlight = x.inFlight := by
  rw [renewSlot]
  split <;> rfl

/-- A single item meets the queue (R17). -/
theorem insertSingle {b : Bulletin} (h : QueueSound q) (hb : kindOf b ≠ kindHandoff) : QueueSound (insertSingle b q) := by
  rw [Machine.insertSingle]
  split
  · refine h.map (fun x _ => ?_) (fun x _ hflight => ?_) fun x hx r hr => ?_
    · split
      · exact renewSlot_kind ((isKind_iff _ _).mp ‹_›)
      · rfl
    · split at hflight
      · rwa [renewSlot_inFlight] at hflight
      · exact hflight
    · split at hr
      · rename_i hk
        rw [if_pos hk, renewSlot_kind ((isKind_iff _ _).mp hk)]
        rw [renewSlot] at hr
        split at hr
        · cases hr
          exact ((isKind_iff _ _).mp hk).symm
        · exact h.renewal x hx r hr
      · rename_i hk
        rw [if_neg hk]
        exact h.renewal x hx r hr
  · rename_i hnone
    refine h.append_waiting ?_
    have hzero : countKind (kindOf b) q = 0 := by
      rw [countKind, List.countP_eq_zero]
      exact fun x hx hk => hnone (List.any_eq_true.mpr ⟨x, hx, hk⟩)
    rw [hzero, if_neg hb]
    exact Nat.one_pos

theorem dropOldestHandoff_sublist (q : List Slot) : (dropOldestHandoff q).Sublist q := by
  induction q with
  | nil => exact .slnil
  | cons x xs ih =>
    rw [dropOldestHandoff]
    split
    · exact List.sublist_cons_self x xs
    · exact ih.cons_cons x

/-- Of two HANDOFFs at least one waits, so the oldest that does is dropped (R18). -/
theorem countKind_dropOldestHandoff (h : q.countP Slot.inFlight < countKind kindHandoff q) :
    countKind kindHandoff (dropOldestHandoff q) < countKind kindHandoff q := by
  induction q with
  | nil => simp [countKind] at h
  | cons x xs ih =>
    rw [dropOldestHandoff]
    cases hk : Slot.isKind kindHandoff x <;> cases hf : x.inFlight <;>
      simp only [countKind, List.countP_cons, hk, hf, Bool.false_and, Bool.true_and, Bool.not_true, Bool.not_false, if_true,
        Bool.false_eq_true, if_false] at h ih ⊢ <;> omega

/-- A HANDOFF meets the queue (R18). -/
theorem insertHandoff (h : QueueSound q) (fields : Handoff) : QueueSound (insertHandoff fields q) := by
  rw [Machine.insertHandoff]
  split
  · rename_i hroom
    exact h.append_waiting hroom
  · rename_i hfull
    refine (h.sublist (dropOldestHandoff_sublist q)).append_waiting ?_
    have hflight := h.flight
    have hmost := h.handoffs
    have hdrop := countKind_dropOldestHandoff (q := q) (by omega)
    change countKind kindHandoff _ < 4
    omega

/-- A bulletin meets the queue (R17 to R19). -/
theorem insertBulletin {l : Line} (h : QueueSound l.queue) (b : Bulletin) : QueueSound (insertBulletin b l).queue := by
  cases b with
  | handoff fields => exact h.insertHandoff fields
  | alarm active latched =>
    simp only [Machine.insertBulletin, offerAlarm]
    (repeat' split)
    · exact h.insertSingle (by simp [kindOf, kindAlarm, kindHandoff])
    · exact h.sublist List.filter_sublist
    · exact h.insertSingle (by simp [kindOf, kindAlarm, kindHandoff])
  | shift | beacon | reply => exact h.insertSingle (b := _) (by simp [kindOf, kindShift, kindBeacon, kindReply, kindHandoff])

/-! ## Attempts, returns, completions -/

theorem returnSlot_inFlight (x : Slot) : (returnSlot x).inFlight = false := by
  rw [returnSlot]
  split
  · rfl
  · exact Bool.eq_false_of_not_eq_true ‹_›

theorem returnSlot_kind {x : Slot} (h : ∀ r, x.renewed = some r → kindOf r = kindOf x.content) :
    kindOf (returnSlot x).content = kindOf x.content := by
  rw [returnSlot]
  split
  · cases hr : x.renewed with
    | none => rfl
    | some r => exact h r hr
  · rfl

theorem returnSlot_renewed {x : Slot} {r : Bulletin} (h : (returnSlot x).renewed = some r) : returnSlot x = x := by
  rw [returnSlot] at h ⊢
  split
  · rw [if_pos ‹_›] at h
    simp at h
  · rfl

/-- The slot in flight returns (R6, R7). -/
theorem map_returnSlot (h : QueueSound q) : QueueSound (q.map returnSlot) :=
  h.map (fun x hx => returnSlot_kind (h.renewal x hx)) (fun x _ hf => by simp [returnSlot_inFlight] at hf) fun x hx r hr => by
    have hsame := returnSlot_renewed hr
    rw [hsame] at hr ⊢
    exact h.renewal x hx r hr

/-- What is left of a completed slot is a waiting item of its kind, or the slot itself (R8). -/
theorem completeSlot_cases {x y : Slot} (h : completeSlot x = some y) :
    y.inFlight = false ∧ (y = x ∨ ∃ r, x.renewed = some r ∧ y = Slot.waiting r) := by
  unfold completeSlot at h
  (repeat' split at h) <;> cases h
  · exact ⟨rfl, .inr ⟨_, ‹_›, rfl⟩⟩
  · exact ⟨Bool.eq_false_of_not_eq_true ‹_›, .inl rfl⟩

theorem completeSlot_kind {x y : Slot} (hx : ∀ r, x.renewed = some r → kindOf r = kindOf x.content)
    (h : completeSlot x = some y) : kindOf y.content = kindOf x.content := by
  rcases (completeSlot_cases h).2 with rfl | ⟨r, hr, rfl⟩
  · rfl
  · exact hx r hr

/-- The transmission of the slot in flight completes (R8). -/
theorem filterMap_completeSlot (h : QueueSound q) : QueueSound (q.filterMap completeSlot) := by
  have hcount : ∀ k, countKind k (q.filterMap completeSlot) ≤ countKind k q := fun k => by
    rw [countKind, List.countP_filterMap]
    refine List.countP_mono_left fun x hx hy => ?_
    cases hc : completeSlot x with
    | none => simp [hc] at hy
    | some y =>
      rw [isKind_iff, ← completeSlot_kind (h.renewal x hx) hc]
      simpa [hc] using hy
  refine ⟨(hcount _).trans h.handoffs, fun k hk => (hcount k).trans (h.single k hk), ?_, fun y hy r hr => ?_⟩
  · rw [List.countP_eq_zero.mpr]
    · exact Nat.zero_le 1
    · intro y hy
      obtain ⟨x, -, hx⟩ := List.mem_filterMap.mp hy
      simp [(completeSlot_cases hx).1]
  · obtain ⟨x, hx, hc⟩ := List.mem_filterMap.mp hy
    rcases (completeSlot_cases hc).2 with rfl | ⟨r', -, rfl⟩
    · exact h.renewal y hx r hr
    · simp at hr

theorem countKind_markInFlight (j k : Nat) (p : List Byte) (q : List Slot) :
    countKind j (markInFlight k p q) = countKind j q := by
  induction q with
  | nil => rfl
  | cons x xs ih =>
    rw [markInFlight]
    split
    · rfl
    · simpa only [countKind, List.countP_cons, Nat.add_right_cancel_iff] using ih

theorem countP_inFlight_markInFlight (k : Nat) (p : List Byte) (q : List Slot) :
    (markInFlight k p q).countP Slot.inFlight ≤ q.countP Slot.inFlight + 1 := by
  induction q with
  | nil => exact Nat.zero_le _
  | cons x xs ih =>
    rw [markInFlight]
    split
    · simp only [List.countP_cons]
      split <;> split <;> omega
    · simp only [List.countP_cons]
      omega

theorem exists_of_mem_markInFlight {k : Nat} {p : List Byte} {q : List Slot} {y : Slot} (h : y ∈ markInFlight k p q) :
    ∃ x ∈ q, y.content = x.content ∧ y.renewed = x.renewed := by
  induction q with
  | nil => exact absurd h List.not_mem_nil
  | cons x xs ih =>
    rw [markInFlight] at h
    split at h
    · rcases List.mem_cons.mp h with rfl | hy
      · exact ⟨x, List.mem_cons_self, rfl, rfl⟩
      · exact ⟨y, List.mem_cons_of_mem x hy, rfl, rfl⟩
    · rcases List.mem_cons.mp h with rfl | hy
      · exact ⟨y, List.mem_cons_self, rfl, rfl⟩
      · obtain ⟨z, hz, hcontent⟩ := ih hy
        exact ⟨z, List.mem_cons_of_mem x hz, hcontent⟩

/-- An attempt puts one item in flight, where none is (R5). -/
theorem markInFlight (h : QueueSound q) (hq : Grounded q) (k : Nat) (p : List Byte) :
    QueueSound (markInFlight k p q) where
  handoffs := (countKind_markInFlight _ k p q).trans_le h.handoffs
  single j hj := (countKind_markInFlight j k p q).trans_le (h.single j hj)
  flight := by
    have hnone : q.countP Slot.inFlight = 0 := List.countP_eq_zero.mpr fun x hx => by simp [hq x hx]
    have hmore := countP_inFlight_markInFlight k p q
    rwa [hnone] at hmore
  renewal y hy r hr := by
    obtain ⟨x, hx, hcontent, hrenewed⟩ := exists_of_mem_markInFlight hy
    rw [hcontent]
    exact h.renewal x hx r (hrenewed ▸ hr)

end QueueSound

/-! ## No slot in flight -/

namespace Grounded

variable {q q' : List Slot}

theorem sublist (h : Grounded q) (hsub : q'.Sublist q) : Grounded q' := fun x hx => h x (hsub.subset hx)

theorem append_waiting (h : Grounded q) (b : Bulletin) : Grounded (q ++ [Slot.waiting b]) := fun x hx => by
  rcases List.mem_append.mp hx with hx | hx
  · exact h x hx
  · rw [List.mem_singleton.mp hx]
    rfl

theorem insertSingle (h : Grounded q) (b : Bulletin) : Grounded (insertSingle b q) := by
  rw [Machine.insertSingle]
  split
  · intro y hy
    obtain ⟨x, hx, rfl⟩ := List.mem_map.mp hy
    split
    · rw [QueueSound.renewSlot_inFlight]
      exact h x hx
    · exact h x hx
  · exact h.append_waiting b

theorem insertHandoff (h : Grounded q) (fields : Handoff) : Grounded (insertHandoff fields q) := by
  rw [Machine.insertHandoff]
  split
  · exact h.append_waiting _
  · exact (h.sublist (QueueSound.dropOldestHandoff_sublist q)).append_waiting _

/-- A bulletin offered puts no slot in flight. -/
theorem insertBulletin {l : Line} (h : Grounded l.queue) (b : Bulletin) : Grounded (insertBulletin b l).queue := by
  cases b with
  | handoff fields => exact h.insertHandoff fields
  | alarm active latched =>
    simp only [Machine.insertBulletin, offerAlarm]
    (repeat' split)
    · exact h.insertSingle _
    · exact h.sublist List.filter_sublist
    · exact h.insertSingle _
  | shift | beacon | reply => exact h.insertSingle _

end Grounded

theorem grounded_map_returnSlot (q : List Slot) : Grounded (q.map returnSlot) := fun y hy => by
  obtain ⟨x, -, rfl⟩ := List.mem_map.mp hy
  exact QueueSound.returnSlot_inFlight x

theorem grounded_filterMap_completeSlot (q : List Slot) : Grounded (q.filterMap completeSlot) := fun y hy => by
  obtain ⟨x, -, hx⟩ := List.mem_filterMap.mp hy
  exact (QueueSound.completeSlot_cases hx).1

end Sys2Proof.Machine
end

section
/-! SUPPORT. The line side's invariant under its own commands, under the other blocks' offers, under accepted frames and under the
starts; then every step (R5, R16, R17, R20, R24, R36). -/

namespace Sys2Proof.Machine

/-! ## The invariant and its parts -/

/-- The line side is sound. -/
structure LineOk (s : State) : Prop where
  link : LinkOk s
  queue : QueueOk s

namespace LineOk

variable {s t u : State}

theorem sound (h : LineOk s) : QueueSound s.line.queue :=
  ⟨h.queue.handoffs, h.queue.single, h.queue.flight, h.queue.renewal⟩

/-- With the timebase lost the station is SILENT, and nothing is queued (R20, R36). -/
theorem queue_of_lost (h : LineOk s) (hrun : s.start.running = true) (hlost : s.view.timebaseLost = true) :
    s.view.link = .silent ∧ s.line.queue = [] := by
  have hlink : s.view.link = .silent := (h.link.silent hrun).mpr (by simp [SilentCauses.isEmpty, ← h.link.timebase, hlost])
  exact ⟨hlink, h.queue.silent hlink⟩

/-- What a running station's line side has to satisfy. -/
theorem of_running (hrun : s.start.running = true) (hlink : s.view.link = .silent ↔ s.view.causes.isEmpty = false)
    (hbase : s.view.timebaseLost = s.view.causes.timebase) (hqueue : QueueSound s.line.queue)
    (hground : s.line.engine ≠ .send → s.line.engine ≠ .abort → Grounded s.line.queue)
    (hsilent : s.view.link = .silent → s.line.queue = []) : LineOk s where
  link := ⟨fun _ => hlink, hbase⟩
  queue := ⟨hqueue.handoffs, hqueue.single, hqueue.flight, hground, hqueue.renewal, hsilent,
    fun hstart => absurd (hrun.symm.trans hstart) (by decide)⟩

/-- A running station with an empty queue. -/
theorem of_empty (hrun : s.start.running = true) (hempty : s.line.queue = [])
    (hlink : s.view.link = .silent ↔ s.view.causes.isEmpty = false)
    (hbase : s.view.timebaseLost = s.view.causes.timebase) : LineOk s :=
  .of_running hrun hlink hbase (hempty ▸ queueSound_nil) (fun _ _ => hempty ▸ grounded_nil) fun _ => hempty

/-- A station in a start sequence (R24). -/
theorem of_starting (hrun : s.start.running = false) (hline : s.line = Line.initial)
    (hbase : s.view.timebaseLost = s.view.causes.timebase) : LineOk s := by
  have hempty : s.line.queue = [] := congrArg Line.queue hline
  have hq : QueueSound s.line.queue := hempty ▸ queueSound_nil
  exact ⟨⟨fun hr => absurd (hrun.symm.trans hr) (by decide), hbase⟩, ⟨hq.handoffs, hq.single, hq.flight,
    fun _ _ => hempty ▸ grounded_nil, hq.renewal, fun _ => hempty, fun _ => ⟨hempty, congrArg Line.engine hline⟩⟩⟩

/-! ## Changes of the line engine, of the link state, and elsewhere -/

theorem of_same (h : LineOk s) (hsame : SameLine s t) : LineOk t := by
  obtain ⟨hrun, hline, hlink, hcauses, hbase⟩ := hsame
  obtain ⟨⟨hsilent, htimebase⟩, hqueue⟩ := h
  refine ⟨⟨?_, ?_⟩, ?_⟩
  · rwa [hrun, hlink, hcauses]
  · rwa [hbase, hcauses]
  · constructor
    · rw [hline]
      exact hqueue.handoffs
    · rw [hline]
      exact hqueue.single
    · rw [hline]
      exact hqueue.flight
    · rw [hline]
      exact hqueue.grounded
    · rw [hline]
      exact hqueue.renewal
    · rw [hline, hlink]
      exact hqueue.silent
    · rw [hline, hrun]
      exact hqueue.starting

/-- The line engine changes on a running station. -/
theorem setLine {l : Line} (h : LineOk s) (hrun : s.start.running = true) (hqueue : QueueSound l.queue)
    (hground : l.engine ≠ .send → l.engine ≠ .abort → Grounded l.queue) (hempty : s.view.link = .silent → l.queue = []) :
    LineOk (s.setLine l) :=
  .of_running hrun (h.link.silent hrun) h.link.timebase hqueue hground hempty

/-- The link state changes from one that is not SILENT to another. -/
theorem setView {v : View} (h : LineOk s) (hrun : s.start.running = true) (hopen : s.view.link ≠ .silent)
    (hlink : v.link ≠ .silent) (hcauses : v.causes = s.view.causes) (hbase : v.timebaseLost = s.view.timebaseLost) :
    LineOk (s.setView v) := by
  refine .of_running hrun ?_ ?_ h.sound h.queue.grounded fun hl => absurd hl hlink
  · change v.link = .silent ↔ v.causes.isEmpty = false
    rw [hcauses, ← h.link.silent hrun]
    exact iff_of_false hlink hopen
  · change v.timebaseLost = v.causes.timebase
    rw [hcauses, hbase]
    exact h.link.timebase

theorem enterListen (h : LineOk s) (hrun : s.start.running = true) (hopen : s.view.link ≠ .silent) :
    LineOk (enterListen s) := h.setView hrun hopen (by simp) rfl rfl

theorem enterJoined (h : LineOk s) (hrun : s.start.running = true) (hopen : s.view.link ≠ .silent) :
    LineOk (enterJoined s) := h.setView hrun hopen (by simp) rfl rfl

theorem enterIsolated (h : LineOk s) (hrun : s.start.running = true) (hopen : s.view.link ≠ .silent) :
    LineOk (enterIsolated s) := h.setView hrun hopen (by simp) rfl rfl

/-! ## Offers -/

/-- A bulletin offered to a running station's queue (R17 to R20). -/
theorem offer (h : LineOk s) (hrun : s.start.running = true) (b : Bulletin) : LineOk (offer b s) := by
  by_cases hlink : s.view.link = .silent
  · rw [offer_of_silent hlink]
    exact h
  · rw [offer_of_open hlink]
    refine h.setLine hrun (h.sound.insertBulletin b) (fun hsend habort => ?_) fun hl => absurd hl hlink
    rw [insertBulletin_eq] at hsend habort
    exact Grounded.insertBulletin (h.queue.grounded hsend habort) b

theorem onlyOffers (h : LineOk s) (hoffers : OnlyOffers s t) : LineOk t := by
  induction hoffers with
  | refl => exact h
  | same _ hsame ih => exact ih.of_same hsame
  | offer b _ hrun ih => exact ih.offer hrun b

/-- The end of an event keeps the line side sound. -/
theorem finish (h : LineOk s) (hrun : s.start.running = true) (before : State) (work : Work) : LineOk (finish before work s) :=
  h.onlyOffers (onlyOffers_finish hrun before work)

/-! ## Silent causes -/

/-- A silent cause joins: SILENT, with an empty queue (R36, R20). -/
theorem addCause {cause : SilentCause} (hrun : s.start.running = true)
    (hbase : s.view.timebaseLost = (s.view.causes.put cause true).timebase)
    (hempty : s.view.link = .silent → s.line.queue = []) : LineOk (addCause cause s) := by
  have hcauses : (s.view.causes.put cause true).isEmpty = false := by
    cases cause <;> simp [SilentCauses.isEmpty, SilentCauses.put]
  unfold Machine.addCause
  dsimp only
  split
  · rename_i hlink
    exact .of_empty hrun (hempty hlink) (iff_of_true hlink hcauses) hbase
  · exact .of_empty hrun rfl (iff_of_true rfl hcauses) hbase

/-- A silent cause leaves a station that is SILENT: LISTEN where it was the last one (R36). -/
theorem removeCause {cause : SilentCause} (hrun : s.start.running = true) (hlink : s.view.link = .silent)
    (hbase : s.view.timebaseLost = (s.view.causes.put cause false).timebase) (hempty : s.line.queue = []) :
    LineOk (removeCause cause s) := by
  unfold Machine.removeCause
  dsimp only
  split
  · rename_i hlast
    have hcauses : (s.view.causes.put cause false).isEmpty = true := (Bool.and_eq_true_iff.mp hlast).1
    exact .of_empty hrun hempty (iff_of_false (by simp [Machine.enterListen]) (by simp [Machine.enterListen, hcauses])) hbase
  · rename_i hmore
    have hcauses : (s.view.causes.put cause false).isEmpty = false := by simpa [hlink] using hmore
    exact .of_empty hrun hempty (iff_of_true hlink hcauses) hbase

/-- The first value of the link state after a start sequence (R174). -/
theorem firstLink (hrun : s.start.running = true) (hlink : s.view.link = .silent)
    (hbase : s.view.timebaseLost = s.view.causes.timebase) (hempty : s.line.queue = []) : LineOk (firstLink s) := by
  unfold Machine.firstLink
  cases hcauses : s.view.causes.isEmpty with
  | true =>
    rw [if_pos rfl]
    exact .of_empty hrun hempty (iff_of_false (by simp [Machine.enterListen]) (by simp [Machine.enterListen, hcauses])) hbase
  | false =>
    rw [if_neg (by simp)]
    exact .of_empty hrun hempty (iff_of_true hlink hcauses) hbase

/-! ## The line engine's own changes -/

/-- The engine moves between the states in which nothing is sent. -/
theorem engineMoves {l : Line} (h : LineOk s) (hrun : s.start.running = true) (hsend : s.line.engine ≠ .send)
    (habort : s.line.engine ≠ .abort) (hqueue : l.queue = s.line.queue) : LineOk (s.setLine l) :=
  h.setLine hrun (hqueue ▸ h.sound) (fun _ _ => hqueue ▸ h.queue.grounded hsend habort)
    fun hl => hqueue.trans (h.queue.silent hl)

/-- The slot in flight returns (R6, R7). -/
theorem slotReturns {l : Line} (h : LineOk s) (hrun : s.start.running = true)
    (hqueue : l.queue = s.line.queue.map returnSlot) : LineOk (s.setLine l) := by
  refine h.setLine hrun ?_ (fun _ _ => ?_) fun hl => ?_
  · rw [hqueue]
    exact h.sound.map_returnSlot
  · rw [hqueue]
    exact grounded_map_returnSlot _
  · rw [hqueue, h.queue.silent hl, List.map_nil]

/-- An item is put in flight (R5). -/
theorem startAttempt (h : LineOk s) (hmay : mayAttempt s = true) (x : Slot) : LineOk (s.setLine (startAttempt s x)) := by
  simp only [mayAttempt, Bool.and_eq_true, decide_eq_true_eq] at hmay
  obtain ⟨⟨hrun, hidle⟩, hopen⟩ := hmay
  have hground : Grounded s.line.queue := h.queue.grounded (by simp [hidle]) (by simp [hidle])
  exact h.setLine hrun (h.sound.markInFlight hground _ _) (fun hsend => absurd rfl hsend) fun hl => absurd hl hopen

/-- ABORT begins (R7). -/
theorem meetBitError (h : LineOk s) (hrun : s.start.running = true) (sent : List Bool) (k : Nat) :
    LineOk (s.setLine (meetBitError sent k s.line)) :=
  h.setLine hrun h.sound (fun _ habort => absurd rfl habort) h.queue.silent

/-- LISTEN and JOINED become ISOLATED (R35). -/
theorem resetLink (h : LineOk s) (hrun : s.start.running = true) : LineOk (resetLink s) := by
  unfold Machine.resetLink
  split
  · exact h.enterIsolated hrun (by simp [*])
  · exact h.enterIsolated hrun (by simp [*])
  · exact h
  · exact h

/-- The abort ends (R21 to R23). -/
theorem endAbort (h : LineOk s) (hrun : s.start.running = true) : LineOk (endAbort s) := by
  cases hbase : s.view.timebaseLost with
  | true =>
    obtain ⟨-, hempty⟩ := h.queue_of_lost hrun hbase
    rw [endAbort_of_lost hbase]
    exact h.setLine hrun h.sound (fun _ _ => hempty ▸ grounded_nil) h.queue.silent
  | false =>
    by_cases hcount : s.line.failures + 1 < 16
    · rw [endAbort_of_counted hbase hcount]
      exact h.slotReturns hrun rfl
    · rw [endAbort_of_sixteenth hbase hcount]
      have hreset : LineOk (s.setLine (lineReset s.line)) :=
        h.setLine hrun queueSound_nil (fun _ _ => grounded_nil) fun _ => rfl
      refine (hreset.resetLink hrun).finish ?_ s .none
      rw [resetLink_lineReset]
      exact hrun

/-- A transmission completes (R8, R35). -/
theorem completeTransmission (h : LineOk s) (hrun : s.start.running = true) (x : Slot) :
    LineOk (completeTransmission x s) := by
  have hline : LineOk (s.setLine (completeLine x (bitsInFlight s x) s.line)) := by
    refine h.setLine hrun h.sound.filterMap_completeSlot (fun _ _ => grounded_filterMap_completeSlot _) fun hl => ?_
    rw [completeLine, h.queue.silent hl, List.filterMap_nil]
  have hlink : LineOk (completeLink (s.setLine (completeLine x (bitsInFlight s x) s.line))) ∧
      (completeLink (s.setLine (completeLine x (bitsInFlight s x) s.line))).start = s.start := by
    unfold completeLink
    split
    · rename_i halone
      have hisolated : s.view.link = .isolated := halone.1
      exact ⟨hline.enterListen hrun (by simp [hisolated]), rfl⟩
    · exact ⟨hline, rfl⟩
  obtain ⟨hok, hstart⟩ := hlink
  unfold Machine.completeTransmission
  dsimp only
  split
  · exact hok.finish (hstart ▸ hrun) s .none
  · exact hok

/-! ## Timebase -/

/-- The timebase is lost on a running station (R23, R39). -/
theorem loseTimebase (h : LineOk s) (hrun : s.start.running = true) : LineOk (loseTimebase s) := by
  have hempty : s.view.link = .silent → (holdLine s.line).queue = [] := fun hl => by
    unfold holdLine
    split <;> exact h.queue.silent hl
  have hadd : LineOk (Machine.addCause .timebase (markLoss ((s.setLine (holdLine s.line)).setTraffic
      (spoilPassage s.traffic)))) := .addCause hrun rfl hempty
  refine hadd.finish ?_ s .none
  unfold Machine.addCause
  dsimp only
  split <;> exact hrun

/-- The timebase is recovered on a running station (R23, R40). -/
theorem recoverTimebase (h : LineOk s) (hrun : s.start.running = true) (hlost : s.view.timebaseLost = true) :
    LineOk (recoverTimebase s) := by
  obtain ⟨hlink, hempty⟩ := h.queue_of_lost hrun hlost
  have hqueue : (releaseLine s.line).queue = [] := by
    unfold releaseLine
    split <;> exact hempty
  have hremove : LineOk (Machine.removeCause .timebase
      ((s.setLine (releaseLine s.line)).setView { s.view with timebaseLost := false })) :=
    .removeCause hrun hlink rfl hqueue
  refine hremove.finish ?_ s .none
  unfold Machine.removeCause
  dsimp only
  split <;> exact hrun

/-- A loss or recovery during a start sequence writes the timebase state and its cause (R24, R39). -/
theorem setTimebase (h : LineOk s) (hrun : s.start.running = false) (lost : Bool) (mark : Nat) :
    LineOk (s.setView { s.view with
      timebaseLost := lost, timebaseMark := mark, causes := s.view.causes.put .timebase lost }) :=
  ⟨⟨fun hr => absurd (hrun.symm.trans hr) (by decide), rfl⟩,
    ⟨h.queue.handoffs, h.queue.single, h.queue.flight, h.queue.grounded, h.queue.renewal, h.queue.silent, h.queue.starting⟩⟩

/-! ## Accepted frames -/

/-- An accepted frame (R10, R27). -/
theorem heard (h : LineOk s) (hmay : mayAccept s = true) (kind : Nat) (sender : Station) (payload : List Byte) :
    LineOk (heard kind sender payload s) := by
  simp only [mayAccept, Bool.and_eq_true, decide_eq_true_eq] at hmay
  obtain ⟨hrun, hreceive⟩ := hmay
  have hends : LineOk (frameEnds kind sender payload s) :=
    h.engineMoves hrun (by simp [hreceive]) (by simp [hreceive]) rfl
  unfold Machine.heard peerFrame
  split
  · split
    · exact hends.setView hrun (by simp [*]) (by simp [*]) rfl rfl
    · exact hends.setView hrun (by simp [*]) (by simp [*]) rfl rfl
    · split
      · exact (hends.enterListen hrun (by simp [*])).of_same ⟨rfl, rfl, rfl, rfl, rfl⟩
      · exact hends
    · exact hends
  · exact hends

/-- A frame under the own number (R15, R36). -/
theorem duplicate (h : LineOk s) (hrun : s.start.running = true) :
    LineOk (Machine.finish t .none (Machine.addCause .duplicate s)) := by
  refine LineOk.finish (.addCause (cause := .duplicate) hrun h.link.timebase h.queue.silent) ?_ t .none
  rw [addCause_duplicate]
  exact hrun

theorem frameOutcome (h : LineOk s) (hout : FrameOutcome s t) : LineOk t := by
  cases hout with
  | none => exact h
  | own kind sender payload hmay =>
    refine (h.heard hmay kind sender payload).duplicate ?_
    rw [(heard_frame kind sender payload s).start]
    exact (Bool.and_eq_true_iff.mp hmay).1
  | heard kind sender payload hmay hoffers => exact (h.heard hmay kind sender payload).onlyOffers hoffers

/-! ## Starts -/

/-- A restart (R24, R177). -/
theorem beginRestart (hbase : s.view.timebaseLost = s.view.causes.timebase) : LineOk (beginRestart s) :=
  .of_starting rfl rfl hbase

theorem powerOn (s : State) : LineOk (powerOn s) := .of_starting rfl rfl rfl

/-- The end of a start sequence (R24, R36, R174). -/
theorem endStart (r : StartReading) (s : State) : LineOk (endStart r s) := by
  have hsame : ∀ u, SameLine u (reformHeat u) := fun u => by
    rw [reformHeat_eq]
    exact ⟨rfl, rfl, rfl, rfl, rfl⟩
  have hblocks : LineOk (startedBlocks r s) := LineOk.of_same (.firstLink rfl rfl rfl rfl) (hsame _)
  refine hblocks.finish ?_ _ .recompute
  unfold startedBlocks
  rw [(hsame _).running]
  unfold Machine.firstLink
  split <;> rfl

end LineOk

/-! ## Every command -/

/-- A command that leaves a sound line side. -/
def KeepsLine (a : Answer) : Prop := ∃ t, a = .next t ∧ LineOk t

/-- A command whose one change keeps the line side sound. -/
theorem KeepsLine.guarded {c : Prop} [Decidable c] {s t : State} (hs : LineOk s) (h : c → LineOk t) :
    KeepsLine (.next (if c then t else s)) := by
  refine ⟨_, rfl, ?_⟩
  split
  · exact h ‹_›
  · exact hs

theorem Quiet.keepsLine {s : State} {a : Answer} (hquiet : Quiet s a) (h : LineOk s) : KeepsLine a := by
  obtain ⟨t, ht, hoffers⟩ := hquiet
  exact ⟨t, ht, h.onlyOffers hoffers⟩

section Commands

variable {s : State} (h : LineOk s)

include h

theorem keepsLine_lineIdle (bits : List Bool) : KeepsLine (exec (.lineIdle bits) s) := by
  refine .guarded h fun ⟨hrun, hhunt⟩ => ?_
  split
  · exact h.engineMoves hrun (by simp [hhunt]) (by simp [hhunt]) rfl
  · exact h

theorem keepsLine_startDelimiter : KeepsLine (exec .startDelimiter s) :=
  .guarded h fun ⟨hrun, hidle⟩ => h.engineMoves hrun (by simp [hidle]) (by simp [hidle]) rfl

theorem keepsLine_frameDiscarded (bits : List Bool) : KeepsLine (exec (.frameDiscarded bits) s) :=
  .guarded h fun ⟨hrun, hreceive, _⟩ => h.engineMoves hrun (by simp [hreceive]) (by simp [hreceive]) rfl

theorem keepsLine_transmitAttemptStart : KeepsLine (exec .transmitAttemptStart s) := by
  refine .guarded h fun hmay => ?_
  split
  · exact h.startAttempt hmay _
  · exact h

theorem keepsLine_lostArbitration (k : Nat) : KeepsLine (exec (.lostArbitration k) s) := by
  refine .guarded h fun ⟨hrun, _⟩ => ?_
  split
  · split
    · refine h.slotReturns hrun ?_
      rw [loseArbitration_eq]
    · exact h
  · exact h

theorem keepsLine_bitError (k : Nat) : KeepsLine (exec (.bitError k) s) := by
  refine .guarded h fun ⟨hrun, _⟩ => ?_
  split
  · split
    · exact h.meetBitError hrun _ k
    · exact h
  · exact h

theorem keepsLine_transmissionComplete : KeepsLine (exec .transmissionComplete s) := by
  refine .guarded h fun ⟨hrun, _⟩ => ?_
  split
  · exact h.completeTransmission hrun _
  · exact h

theorem keepsLine_listenTimerExpiry : KeepsLine (exec .listenTimerExpiry s) := by
  refine .guarded h fun hdue => ?_
  simp only [listenDue, Bool.and_eq_true, decide_eq_true_eq] at hdue
  obtain ⟨⟨hrun, hlisten⟩, -⟩ := hdue
  unfold endListen
  split
  · exact (h.enterJoined hrun (by simp [hlisten])).finish hrun s .none
  · exact (h.enterIsolated hrun (by simp [hlisten])).finish hrun s .none

theorem keepsLine_isolationTimerExpiry : KeepsLine (exec .isolationTimerExpiry s) := by
  refine .guarded h fun hdue => ?_
  simp only [isolationDue, Bool.and_eq_true, decide_eq_true_eq] at hdue
  obtain ⟨⟨hrun, hjoined, -⟩, -⟩ := hdue
  exact (h.enterIsolated hrun (by simp [hjoined])).finish hrun s .none

theorem keepsLine_timebaseLost : KeepsLine (exec .timebaseLost s) := by
  refine ⟨_, rfl, ?_⟩
  split
  · rename_i hlost
    exact h.of_same ⟨rfl, rfl, rfl, rfl, hlost.symm⟩
  · split
    · exact h.loseTimebase ‹_›
    · exact h.setTimebase (Bool.eq_false_of_not_eq_true ‹_›) true s.clock

theorem keepsLine_timebaseRecovered : KeepsLine (exec .timebaseRecovered s) := by
  refine .guarded h fun hmay => ?_
  have hlost : s.view.timebaseLost = true := (Bool.and_eq_true_iff.mp hmay).1
  split
  · exact h.recoverTimebase ‹_› hlost
  · exact h.setTimebase (Bool.eq_false_of_not_eq_true ‹_›) false s.view.timebaseMark

theorem keepsLine_frame {c : Instr} (hc : c.frame.isSome = true) (hrestart : ∀ st p, c ≠ .restart st p) :
    KeepsLine (exec c s) := by
  obtain ⟨t, ht, hout⟩ := exec_frameOutcome hc hrestart s
  exact ⟨t, ht, h.frameOutcome hout⟩

theorem keepsLine_restart (sender : Station) (p : Vector Byte 9) : KeepsLine (exec (.restart sender p) s) := by
  obtain ⟨t, ht, hout | ⟨u, rfl, hbase, hcauses⟩⟩ := execRestart_outcome sender p s
  · exact ⟨t, ht, h.frameOutcome hout⟩
  · refine ⟨_, ht, .beginRestart ?_⟩
    rw [hbase, hcauses]
    exact h.link.timebase

/-- Every command keeps the line side sound. -/
theorem exec_keepsLine (c : Instr) : KeepsLine (exec c s) := by
  cases c
  case powerOnReset => exact ⟨_, rfl, LineOk.powerOn s⟩
  case startSequenceEnd r =>
    refine ⟨_, rfl, ?_⟩
    split
    · exact h
    · exact LineOk.endStart r s
  case lineIdle bits => exact keepsLine_lineIdle h bits
  case startDelimiter => exact keepsLine_startDelimiter h
  case frameDiscarded bits => exact keepsLine_frameDiscarded h bits
  case transmitAttemptStart => exact keepsLine_transmitAttemptStart h
  case lostArbitration k => exact keepsLine_lostArbitration h k
  case bitError k => exact keepsLine_bitError h k
  case abortEnd => exact .guarded h fun ⟨hrun, _⟩ => h.endAbort hrun
  case transmissionComplete => exact keepsLine_transmissionComplete h
  case listenTimerExpiry => exact keepsLine_listenTimerExpiry h
  case isolationTimerExpiry => exact keepsLine_isolationTimerExpiry h
  case timebaseLost => exact keepsLine_timebaseLost h
  case timebaseRecovered => exact keepsLine_timebaseRecovered h
  case restart sender p => exact keepsLine_restart h sender p
  case beaconReceived | handoffReceived | shiftReceived | alarmReceived | replyReceived | lightSet | heatHold | heatSetpoint
      | heatBoost | ventPurge | ventStop | release | alarmAck | queryStatus | queryPeer | queryShift | queryDoor
      | queryOverrides | queryLoads | directiveDropped | queryDropped =>
    exact keepsLine_frame h rfl (by simp)
  all_goals exact (exec_quiet rfl s).keepsLine h

end Commands

/-- Settles O56: neither a millisecond nor the command's leaving the pending queue touches the line side, and every command keeps
it sound (`exec_keepsLine`). -/
theorem lineInvariantsKept : Obligations.LineInvariantsKept := by
  intro s t hlink hqueue hstep
  have h : LineOk s := ⟨hlink, hqueue⟩
  suffices ht : LineOk t from ⟨ht.link, ht.queue⟩
  unfold step at hstep
  split at hstep
  · cases hstep
    exact h.of_same ⟨rfl, rfl, rfl, rfl, rfl⟩
  · rename_i c rest _
    have hrest : LineOk (s.setPending rest) := h.of_same ⟨rfl, rfl, rfl, rfl, rfl⟩
    obtain ⟨u, hu, hok⟩ := exec_keepsLine hrest c
    cases hu.symm.trans hstep
    exact hok

end Sys2Proof.Machine
end

section
/-! SUPPORT. When each timer event of the tick is due, in the terms of its own rule, and the statement about the tick (assumption
logs 1 and 11). -/

namespace Sys2Proof.Machine

/-! ## Timers -/

/-- A time of `ms` counted from `since` has run out; a timer that does not run has no such moment. -/
def Passed (now : Nat) (since : Option Nat) (ms : Nat) : Prop := ∃ m, since = some m ∧ m + ms ≤ now

theorem reached_iff (due : Option Nat) (now : Nat) : reached due now = true ↔ Passed now due 0 := by
  cases due <;> simp [reached, Passed]

/-- A limit held as the moment at which the timer starts. -/
theorem reached_map_iff (since : Option Nat) (ms now : Nat) :
    reached (since.map fun t => t + ms) now = true ↔ Passed now since ms := by
  cases since <;> simp [reached, Passed]

section Due

variable (s : State)

theorem listenDue_iff : listenDue s = true ↔
    s.start.running = true ∧ s.view.link = .listen ∧ Passed s.clock s.view.listenDue 0 := by
  simp [listenDue, reached_iff, and_assoc]

theorem isolationDue_iff : isolationDue s = true ↔ s.start.running = true ∧ s.view.link = .joined ∧
    2 ≤ s.start.config.header.nCfg ∧ Passed s.clock s.view.isolationDue 0 := by
  simp [isolationDue, reached_iff, and_assoc]

theorem changeoverDue_iff : changeoverDue s = true ↔
    s.start.running = true ∧ Passed s.clock s.shift.changeoverDue 0 := by
  simp [changeoverDue, reached_iff]

theorem lockoutDue_iff : lockoutDue s = true ↔ s.start.running = true ∧ Passed s.clock s.shift.lockoutDue 0 := by
  simp [lockoutDue, reached_iff]

theorem expiryDue_iff (k : StackId) (source : SourceKind) (origin : Option Station) : expiryDue k source origin s = true ↔
    s.start.running = true ∧
      ∃ e ∈ stackOf s.overrides k, e.source = source ∧ e.origin = origin ∧ Passed s.clock e.expiry 0 := by
  simp [expiryDue, sameIdentity, reached_iff, and_assoc]

theorem beaconDue_iff : beaconDue s = true ↔ s.start.running = true ∧ s.view.nextBeacon ≤ s.clock := by
  simp [beaconDue]

theorem gateClearDue_iff : gateClearDue s = true ↔
    s.start.running = true ∧ s.traffic.gate = .fault ∧ Passed s.clock s.traffic.quietSince 600000 := by
  simp [gateClearDue, reached_map_iff, and_assoc]

theorem vacancyDue_iff : vacancyDue s = true ↔ s.start.running = true ∧ Passed s.clock s.traffic.vacancySince
    (if s.traffic.uncertain then s.start.config.gate.vacancy * 250 else s.start.config.gate.vacancy * 1000) := by
  simp [vacancyDue, vacancyReached, vacancyLimit, reached_map_iff]

theorem leadInDue_iff : leadInDue s = true ↔ s.start.running = true ∧ Passed s.clock s.lighting.leadInDue 0 := by
  simp [leadInDue, reached_iff]

theorem vacatingDue_iff : vacatingDue s = true ↔ s.start.running = true ∧ Passed s.clock s.lighting.vacatingDue 0 := by
  simp [vacatingDue, reached_iff]

theorem boostDue_iff : boostDue s = true ↔ s.start.running = true ∧ Passed s.clock s.doors.recoveryDue 0 := by
  simp [boostDue, reached_iff]

theorem coastDue_iff (n : Fin 2) : coastDue n s = true ↔ s.start.running = true ∧
    (fanOfNumber n s.air).state = .coasting ∧ Passed s.clock (fanOfNumber n s.air).coastDue 0 := by
  simp [coastDue, reached_iff, and_assoc]

theorem rampDue_iff (n : Fin 2) : rampDue n s = true ↔ s.start.running = true ∧
    (fanOfNumber n s.air).state = .running ∧ Passed s.clock (fanOfNumber n s.air).rampDue 0 := by
  simp [rampDue, reached_iff, and_assoc]

theorem pendingDue_iff : pendingDue s = true ↔ s.start.running = true ∧ Passed s.clock s.alloc.pendingDue 0 := by
  simp [pendingDue, reached_iff]

theorem checkDue_iff : checkDue s = true ↔ s.start.running = true ∧ s.alloc.nextCheck ≤ s.clock := by
  simp [checkDue]

/-! ## Records that may be missing -/

/-- The age of an entry of the view table, counted in intervals its beacon declares; an entry without a beacon has none (R29). -/
theorem reached_entryDue_iff (n intervals : Nat) (state : EntryState) :
    (entryOf n s).state = state ∧ reached (entryDue intervals (entryOf n s)) s.clock = true ↔
      ∃ e b, s.view.entries[n]? = some e ∧ e.state = state ∧ e.beacon = some b ∧
        e.heardAt + intervals * b.interval ≤ s.clock := by
  unfold entryOf entryDue
  rw [List.getD_eq_getElem?_getD]
  cases s.view.entries[n]? with
  | none => simp [PeerEntry.empty, reached]
  | some e => cases he : e.beacon <;> simp [he, reached]

theorem staleDue_iff (n : Fin 32) : staleDue n s = true ↔ s.start.running = true ∧ ∃ e b,
    s.view.entries[n.val]? = some e ∧ e.state = .fresh ∧ e.beacon = some b ∧ e.heardAt + 3 * b.interval ≤ s.clock := by
  rw [← reached_entryDue_iff]
  simp [staleDue, and_assoc]

theorem lostDue_iff (n : Fin 32) : lostDue n s = true ↔ s.start.running = true ∧ ∃ e b,
    s.view.entries[n.val]? = some e ∧ e.state = .stale ∧ e.beacon = some b ∧ e.heardAt + 10 * b.interval ≤ s.clock := by
  rw [← reached_entryDue_iff]
  simp [lostDue, and_assoc]

theorem zoneDue_iff (z : Fin 4) : zoneDue z s = true ↔ s.start.running = true ∧ ∃ x,
    s.traffic.zones[z.val]? = some x ∧ Passed s.clock x.releasedAt (s.start.config.gate.zoneHold * 1000) := by
  rw [zoneDue, Bool.and_eq_true, reached_map_iff, zoneOf, List.getD_eq_getElem?_getD]
  cases s.traffic.zones[z.val]? <;> simp [Passed]

/-- A test of a door's record. -/
theorem doorTest_iff {test : Door → Bool} {holds : Door → Prop} (h : ∀ r, test r = true ↔ holds r) (d : Fin 8) :
    doorTest d test s = true ↔ s.start.running = true ∧ ∃ r, s.doors.records[d.val]? = some r ∧ holds r := by
  rw [doorTest, doorOf, Bool.and_eq_true]
  cases s.doors.records[d.val]? <;> simp [h]

/-- A test of a stage's minimum time. -/
theorem stageTest_iff {due : StageConfig → Stage → Option Nat} {holds : StageConfig → Stage → Prop}
    (h : ∀ c st, reached (due c st) s.clock = true ↔ holds c st) (k : Fin 4) : stageTest k due s = true ↔
    s.start.running = true ∧
      ∃ c st, s.start.config.heat.stages[k.val]? = some c ∧ s.heat.stages[k.val]? = some st ∧ holds c st := by
  rw [stageTest, Bool.and_eq_true, State.cfg]
  cases s.start.config.heat.stages[k.val]? <;> cases s.heat.stages[k.val]? <;> simp [h]

theorem reached_minOnDue_iff (now : Nat) (c : StageConfig) (st : Stage) : reached (minOnDue c st) now = true ↔
    st.on = true ∧ st.demand = .holding ∧ st.since + c.minOn * 1000 ≤ now := by
  unfold minOnDue
  split <;> simp_all [reached]

theorem reached_minOffDue_iff (now : Nat) (c : StageConfig) (st : Stage) : reached (minOffDue c st) now = true ↔
    st.on = false ∧ st.demand = .called ∧ st.granted = true ∧ st.since + c.minOff * 1000 ≤ now := by
  unfold minOffDue
  split <;> simp_all [reached]

theorem doorHoldDue_iff (d : Fin 8) : doorHoldDue d s = true ↔ s.start.running = true ∧ ∃ r,
    s.doors.records[d.val]? = some r ∧ r.state = .openUnsealed ∧
      Passed s.clock r.holdSince (s.start.config.doors.holdLimit * 1000) :=
  doorTest_iff s (fun r => by simp [holdDue, reached_map_iff]) d

theorem doorClearDue_iff (d : Fin 8) : doorClearDue d s = true ↔ s.start.running = true ∧ ∃ r,
    s.doors.records[d.val]? = some r ∧ r.state = .fault ∧ Passed s.clock r.stableSince 120000 :=
  doorTest_iff s (fun r => by simp [stableDue, reached_map_iff]) d

theorem openSecondsDue_iff (d : Fin 8) : openSecondsDue d s = true ↔ s.start.running = true ∧ ∃ r,
    s.doors.records[d.val]? = some r ∧ Passed s.clock r.openMark (1000 - r.remainder) :=
  doorTest_iff s (fun r => reached_map_iff r.openMark _ _) d

end Due

/-! ## Rises -/

/-- A quotient rounded up is a time within which the product is reached. -/
theorem ceil_le_iff {fade : Nat} (hfade : 1 ≤ fade) (n elapsed : Nat) :
    (n + fade - 1) / fade ≤ elapsed ↔ n ≤ fade * elapsed := by
  rw [Nat.div_le_iff_le_mul_add_pred hfade]
  omega

/-- The next whole percent of a rise is due once the fade has brought it (R85). -/
theorem riseStepDue_iff {s : State} (hfade : 1 ≤ s.start.config.lighting.fade) (i : Fin 4) : riseStepDue i s = true ↔
    s.start.running = true ∧ ∃ c l0 t0, s.lighting.channels[i.val]? = some c ∧ c.rise = some (l0, t0) ∧
      c.present < c.target ∧ t0 ≤ s.clock ∧
      (c.present + 1 - l0) * 1000 ≤ s.start.config.lighting.fade * (s.clock - t0) := by
  rw [riseStepDue, Bool.and_eq_true, channelOf, List.getD_eq_getElem?_getD]
  refine and_congr_right fun _ => ?_
  cases s.lighting.channels[i.val]? with
  | none => simp [Channel.dark, riseDue, reached]
  | some c =>
    cases hrise : c.rise with
    | none => simp [riseDue, hrise, reached]
    | some r =>
      obtain ⟨l0, t0⟩ := r
      have hceil := ceil_le_iff hfade ((c.present + 1 - l0) * 1000) (s.clock - t0)
      have hsum (q : Nat) : t0 + q ≤ s.clock ↔ t0 ≤ s.clock ∧ q ≤ s.clock - t0 := by omega
      by_cases hbelow : c.present < c.target
      · simp [riseDue, hrise, hbelow, reached, hsum, hceil]
      · simp [riseDue, hrise, hbelow, reached]

/-! ## Debounced inputs -/

/-- The raw level becomes the debounced one after its stable time (R45, R90, R93). -/
theorem admits_stable_iff (period now : Nat) (level : Bool) (i : Debounced) : i.admits period now .stable level = true ↔
    i.level ≠ some level ∧ i.raw = level ∧ i.since + period ≤ now := by
  simp [Debounced.admits, Debounced.held]

/-- A door's input is ready to settle with a level it has, or with its first one (R93). -/
theorem firstLevel_iff (now : Nat) (level : Bool) (i : Debounced) : firstLevel now level i = true ↔
    i.level = some level ∨ (i.level = none ∧ i.raw = level ∧ i.since + 500 ≤ now) := by
  simp [firstLevel, Debounced.held]

section Inputs

variable (s : State)

theorem shiftInputAdmits_iff (pressed : Bool) : shiftInputAdmits .stable pressed s = true ↔ s.start.running = true ∧
    s.shift.input.level ≠ some pressed ∧ s.shift.input.raw = pressed ∧ s.shift.input.since + 50 ≤ s.clock := by
  rw [shiftInputAdmits, Bool.and_eq_true, admits_stable_iff]

theorem manualAdmits_iff (asserted : Bool) : manualAdmits .stable asserted s = true ↔ s.start.running = true ∧
    s.lighting.manual.level ≠ some asserted ∧ s.lighting.manual.raw = asserted ∧
      s.lighting.manual.since + 50 ≤ s.clock := by
  rw [manualAdmits, Bool.and_eq_true, admits_stable_iff]

theorem settlingDue_iff (d : Fin 8) (isOpen isPresent : Bool) : settlingDue d isOpen isPresent s = true ↔
    s.start.running = true ∧ ∃ r, s.doors.records[d.val]? = some r ∧ r.settling = true ∧
      (r.contact.level = some isOpen ∨
        (r.contact.level = none ∧ r.contact.raw = isOpen ∧ r.contact.since + 500 ≤ s.clock)) ∧
      (r.trailer.level = some isPresent ∨
        (r.trailer.level = none ∧ r.trailer.raw = isPresent ∧ r.trailer.since + 500 ≤ s.clock)) :=
  doorTest_iff s (fun r => by simp only [maySettle, Bool.and_eq_true, firstLevel_iff, and_assoc]) d

theorem contactAdmits_iff (d : Fin 8) (isOpen : Bool) : contactAdmits d .stable isOpen s = true ↔
    s.start.running = true ∧ ∃ r, s.doors.records[d.val]? = some r ∧
      r.contact.level ≠ some isOpen ∧ r.contact.raw = isOpen ∧ r.contact.since + 500 ≤ s.clock :=
  doorTest_iff s (fun r => admits_stable_iff 500 s.clock isOpen r.contact) d

theorem trailerAdmits_iff (d : Fin 8) (isPresent : Bool) : trailerAdmits d .stable isPresent s = true ↔
    s.start.running = true ∧ ∃ r, s.doors.records[d.val]? = some r ∧
      r.trailer.level ≠ some isPresent ∧ r.trailer.raw = isPresent ∧ r.trailer.since + 500 ≤ s.clock :=
  doorTest_iff s (fun r => admits_stable_iff 500 s.clock isPresent r.trailer) d

end Inputs

/-! ## The statement -/

/-- Settles O2: the tick queues what is due (`mem_dueCommands`), and each timer's lemma says when that is. -/
theorem emptyQueueTicks : Obligations.EmptyQueueTicks := by
  intro s hempty hfade cfg now passed ended aged door stage fan steady first
  refine ⟨tick s, ?_, rfl, fun c => ?_⟩
  · rw [step, hempty]
  have hdue : c ∈ (tick s).pending ↔ isDue (s.setClock now) c = true := mem_dueCommands _ c
  have hnever : false = true ↔ s.start.running = true ∧ False := by simp
  rw [hdue]
  cases c
  case listenTimerExpiry => exact listenDue_iff _
  case isolationTimerExpiry => exact isolationDue_iff _
  case changeoverTimerExpiry => exact changeoverDue_iff _
  case lockoutTimerExpiry => exact lockoutDue_iff _
  case overrideExpiry k source origin => cases k <;> exact expiryDue_iff _ _ source origin
  case entryStale n => exact staleDue_iff _ n
  case entryLost n => exact lostDue_iff _ n
  case beaconScheduling => exact beaconDue_iff _
  case gateFaultClear => exact gateClearDue_iff _
  case zoneHoldExpiry z => exact zoneDue_iff _ z
  case vacancyCorrection => exact vacancyDue_iff _
  case leadInTimerExpiry => exact leadInDue_iff _
  case vacatingTimerExpiry => exact vacatingDue_iff _
  case levelRiseStep i => exact riseStepDue_iff (s := s.setClock now) hfade i
  case doorHoldExpiry d => exact doorHoldDue_iff _ d
  case doorFaultClear d => exact doorClearDue_iff _ d
  case openSecondsAdvance d => exact openSecondsDue_iff _ d
  case stageMinOnExpiry k => exact stageTest_iff _ (reached_minOnDue_iff now) k
  case stageMinOffExpiry k => exact stageTest_iff _ (reached_minOffDue_iff now) k
  case boostRecoveryExpiry => exact boostDue_iff _
  case coastTimerExpiry n => exact coastDue_iff _ n
  case rampTimerExpiry n => exact rampDue_iff _ n
  case pendingIncreaseExpiry => exact pendingDue_iff _
  case meterCheck => exact checkDue_iff _
  case shiftInputChange pressed event =>
    cases event with
    | raw => exact hnever
    | stable => exact shiftInputAdmits_iff _ pressed
  case manualAsserted event =>
    cases event with
    | raw => exact hnever
    | stable => exact manualAdmits_iff _ true
  case manualReleased event =>
    cases event with
    | raw => exact hnever
    | stable => exact manualAdmits_iff _ false
  case doorSettlingEnds d isOpen isPresent => exact settlingDue_iff _ d isOpen isPresent
  case doorContactChange d isOpen event =>
    cases event with
    | raw => exact hnever
    | stable => exact contactAdmits_iff _ d isOpen
  case doorTrailerChange d isPresent event =>
    cases event with
    | raw => exact hnever
    | stable => exact trailerAdmits_iff _ d isPresent
  all_goals exact hnever

end Sys2Proof.Machine
end

section
/-! SUPPORT. The peer view: an accepted BEACON or ALARM at the sender's entry, the ageing of entries, the link timers and the
timebase; the statements about them (spec 02). -/

namespace Sys2Proof.Machine

/-! ## A peer's BEACON and ALARM -/

/-- A sender is a peer or not before and after its frame is heard (R27). -/
theorem isPeer_heard (kind : Nat) (sender from_ : Station) (payload : List Byte) (s : State) :
    isPeer sender (heard kind from_ payload s) = isPeer sender s := by
  simp [isPeer, (heard_frame kind from_ payload s).start]

/-- A frame leaves the entries as they are (R27). -/
theorem heard_entries (kind : Nat) (sender : Station) (payload : List Byte) (s : State) :
    (heard kind sender payload s).view.entries = s.view.entries := by
  rw [(heard_frame kind sender payload s).view]

/-- A number that no configured bay station has is no peer's (R27). -/
theorem isPeer_of_unconfigured {sender : Station} {s : State}
    (h : 32 ≤ sender.toNat ∨ s.start.config.header.nCfg ≤ sender.toNat) : isPeer sender s = false := by
  rw [Bool.eq_false_iff, Ne, isPeer_iff]
  omega

/-- The shift fields of a beacon touch neither the traffic unit nor the own number (R49). -/
theorem beaconShift_frame (b : BeaconFields) (s : State) : ShiftFrame s (beaconShift b s) := by
  unfold beaconShift
  split
  · exact adoptionTest_frame _ _ s
  · exact .refl s

/-- The gate fields of the lower neighbour's beacon go to the traffic unit, those of another not (R28, R67). -/
theorem beaconGate_eq (sender : Station) (b : BeaconFields) (s : State) : beaconGate sender b s = { s with
    traffic := if sender.toNat + 1 = s.start.strapped then lowerBeacon b.gateCount b.gate s.traffic else s.traffic } := by
  simp only [beaconGate, isLower, decide_eq_true_eq]
  split <;> rfl

/-- Settles O16: a configured bay station's beacon ends in a recomputation, of whose end `finish_frame` speaks; any other is passed
over, and leaves the link state (`heard_of_not_peer`). -/
theorem beaconReceived : Obligations.BeaconReceived := by
  intro s sender p hrun hrecv hother b u e v w gap
  have hexec : exec (.beaconReceived sender p) s = .next (closeBeacon sender s (deliverBeacon sender p u)) :=
    congrArg _ (takeFrame_of_other hrun hrecv hother)
  refine ⟨_, hexec, fun ⟨h32, hcfg⟩ => ?_, fun hnone => ?_⟩
  · have hp : isPeer sender s = true := (isPeer_iff sender s).mpr ⟨h32, hcfg, hother⟩
    have hu : isPeer sender u = true := (isPeer_heard ..).trans hp
    have hv : onEntry sender.toNat (fun _ => beaconEntry u.clock p) u = v := by
      rw [(heard_frame 4 sender p.toList s).clock, onEntry, heard_entries]
      rfl
    have hw : beaconShift b v = w := rfl
    have hstart : w.start = s.start :=
      (beaconShift_frame b v).start.trans (heard_frame 4 sender p.toList s).start
    have htraffic : w.traffic = s.traffic :=
      (beaconShift_frame b v).traffic.trans (heard_frame 4 sender p.toList s).traffic
    have hdeliver : deliverBeacon sender p u = beaconGate sender b w := by
      rw [deliverBeacon, if_pos hu, hv, hw]
    rw [closeBeacon, if_pos hp, hdeliver, beaconGate_eq, hstart, htraffic]
    -- The comparison of the two states is one of their blocks; what `w` is made of has no part in it.
    clear_value w
    exact finish_frame s .recompute _
  · have hp : isPeer sender s = false := isPeer_of_unconfigured hnone
    have hdeliver : deliverBeacon sender p u = u := if_neg (Bool.eq_false_iff.mp ((isPeer_heard ..).trans hp))
    have hu : u = frameEnds 4 sender p.toList s := heard_of_not_peer hp
    rw [closeBeacon, if_neg (by simp [hp]), hdeliver]
    exact (finishLink_spec s u).1 (hu ▸ rfl)

/-- Settles O21: only a configured bay station's entry takes the summary; the event ends either way (`finish_frame`). -/
theorem alarmReceived : Obligations.AlarmReceived := by
  intro s sender p hrun hrecv hother u
  have hexec : exec (.alarmReceived sender p) s = .next (finish s .none (deliverAlarm sender p u)) :=
    congrArg _ (takeFrame_of_other hrun hrecv hother)
  have hend := finish_frame s .none (deliverAlarm sender p u)
  refine ⟨_, hexec, fun ⟨h32, hcfg⟩ => ?_, fun hnone => ?_⟩
  · have hp : isPeer sender s = true := (isPeer_iff sender s).mpr ⟨h32, hcfg, hother⟩
    have hdeliver : deliverAlarm sender p u =
        onEntry sender.toNat (fun e => { e with alarms := some (alarmActive p) }) u :=
      if_pos ((isPeer_heard ..).trans hp)
    rw [hdeliver, onEntry, heard_entries] at hend ⊢
    exact hend
  · have hdeliver : deliverAlarm sender p u = u :=
      if_neg (Bool.eq_false_iff.mp ((isPeer_heard ..).trans (isPeer_of_unconfigured hnone)))
    rw [hdeliver] at hend ⊢
    exact hend

/-! ## Entries and link timers -/

/-- A command whose event happens makes its change and ends the event. -/
theorem event_of_due {c : Prop} [Decidable c] (h : c) (before : State) (work : Work) (u s : State) :
    ∃ t, (Host.Outcome.next (if c then finish before work u else s) : Answer) = .next t ∧ EventFrame before u t :=
  ⟨_, congrArg _ (if_pos h), finish_frame before work u⟩

/-- The loss of the lower neighbour's entry sets UNCERTAIN (R67). -/
theorem lowerLost_eq (n : Nat) (s : State) : lowerLost n s = { s with
    traffic := if n + 1 = s.start.strapped then { s.traffic with uncertain := true } else s.traffic } := by
  simp only [lowerLost, State.own]
  split <;> rfl

/-- Settles O34: the age is the one that makes the entry's event due (`staleDue_iff`, `lostDue_iff`). -/
theorem entryAgeing : Obligations.EntryAgeing := by
  intro s n e b hrun hentry hbeacon
  refine ⟨fun hstate hage => ?_, fun hstate hage => ?_⟩
  · have hdue := (staleDue_iff s n).mpr ⟨hrun, e, b, hentry, hstate, hbeacon, hage⟩
    exact event_of_due hdue s .recompute (onEntry n.val (fun x => { x with state := .stale }) s) s
  · have hdue := (lostDue_iff s n).mpr ⟨hrun, e, b, hentry, hstate, hbeacon, hage⟩
    obtain ⟨t, hexec, hend⟩ :=
      event_of_due hdue s .recompute (lowerLost n.val (onEntry n.val (fun x => { x with state := .lost }) s)) s
    rw [lowerLost_eq] at hend
    exact ⟨t, hexec, hend⟩

/-- In ISOLATED its condition is active (R149). -/
theorem EventFrame.isolated {before s t : State} (h : EventFrame before s t) (hlink : s.view.link = .isolated) :
    conditionSet t.alarms.active 10 = true := by
  rw [h.condition (by decide)]
  exact decide_eq_true (h.view ▸ hlink)

/-- Settles O35: each timer's lemma says that its event happens (`listenDue_iff`, `isolationDue_iff`), and ISOLATED raises its
condition (`EventFrame.isolated`). -/
theorem linkTimers : Obligations.LinkTimers := by
  intro s due hrun hdue nCfg isolated
  refine ⟨fun hlink htimer => ?_, fun hlink hcfg htimer => ?_⟩
  · obtain ⟨t, hexec, hend⟩ :=
      event_of_due ((listenDue_iff s).mpr ⟨hrun, hlink, due, htimer, hdue⟩) s .none (endListen s) s
    refine ⟨t, hexec, fun hjoin => ?_, fun hheard halone => ?_⟩
    · rw [endListen, if_pos hjoin] at hend
      exact hend
    · rw [endListen, if_neg (not_or.mpr ⟨by simp [hheard], halone⟩)] at hend
      exact ⟨hend, hend.isolated rfl⟩
  · obtain ⟨t, hexec, hend⟩ :=
      event_of_due ((isolationDue_iff s).mpr ⟨hrun, hlink, hcfg, due, htimer, hdue⟩) s .none (enterIsolated s) s
    exact ⟨t, hexec, hend, hend.isolated rfl⟩

/-! ## Timebase -/

/-- The line engine when the timebase is lost, piece by piece (R23). -/
theorem holdLine_eq (l : Line) : holdLine l = { l with
    engine := match l.engine with
      | .send => .abort
      | .abort => .abort
      | _ => .held
    idle := if l.engine = .send then 0 else l.idle
    assembler := if l.engine = .receive then Assembler.start else l.assembler } := by
  obtain ⟨engine⟩ := l
  cases engine <;> rfl

/-- TIMEBASE joins the silent causes: the link state is SILENT and the queue is empty, unless it was SILENT already
(R36, R20). -/
theorem addCause_timebase (s : State) : addCause .timebase s = { s with
    line := { s.line with queue := if s.view.link = .silent then s.line.queue else [] }
    view := { s.view with
      causes := { s.view.causes with timebase := true }
      link := .silent
      listenDue := if s.view.link = .silent then s.view.listenDue else none
      isolationDue := if s.view.link = .silent then s.view.isolationDue else none } } := by
  obtain ⟨_, _, _, _, ⟨_, _, _, link⟩⟩ := s
  cases link <;> rfl

/-- TIMEBASE leaves the silent causes: with none left, SILENT ends in LISTEN (R36). -/
theorem removeCause_timebase (s : State) : removeCause .timebase s = { s with
    view := if { s.view.causes with timebase := false : SilentCauses }.isEmpty = true ∧ s.view.link = .silent then
        { s.view with
          causes := { s.view.causes with timebase := false }, link := .listen
          listenDue := some (s.clock + 3 * s.start.config.header.interval), heard := false, isolationDue := none }
      else { s.view with causes := { s.view.causes with timebase := false } } } := by
  unfold removeCause
  simp only [State.setView_view, Bool.and_eq_true, decide_eq_true_eq]
  split <;> rename_i h <;> simp only [SilentCauses.put] at h <;> simp only [h] <;> rfl

theorem spoilPassage_eq (t : Traffic) : spoilPassage t = { t with clean := t.clean && decide (t.first = none) } := by
  rw [spoilPassage]
  cases t.first <;> rfl

/-- A renewed loss only begins the recovery time again (R40). -/
theorem markLoss_of_lost {s : State} (h : s.view.timebaseLost = true) :
    markLoss s = { s with view := { s.view with timebaseMark := s.clock } } := by
  rw [markLoss, ← h]
  rfl

theorem mayRecover_of_mark {s : State} (hlost : s.view.timebaseLost = true) (hmark : s.view.timebaseMark + 100 ≤ s.clock) :
    mayRecover s = true := by
  simp [mayRecover, hlost, hmark]

/-- The station after a loss of the timebase, before the end of the event (R23, R36, R39, R60). -/
theorem loseTimebase_frame (s : State) : EventFrame s { s with
    line := { s.line with
      engine := match s.line.engine with
        | .send => .abort
        | .abort => .abort
        | _ => .held
      idle := if s.line.engine = .send then 0 else s.line.idle
      assembler := if s.line.engine = .receive then Assembler.start else s.line.assembler
      queue := if s.view.link = .silent then s.line.queue else [] }
    view := { s.view with
      timebaseLost := true, timebaseMark := s.clock, causes := { s.view.causes with timebase := true }
      link := .silent
      listenDue := if s.view.link = .silent then s.view.listenDue else none
      isolationDue := if s.view.link = .silent then s.view.isolationDue else none }
    traffic := { s.traffic with clean := s.traffic.clean && decide (s.traffic.first = none) } } (loseTimebase s) := by
  have hend : EventFrame s
      (addCause .timebase (markLoss ((s.setLine (holdLine s.line)).setTraffic (spoilPassage s.traffic)))) (loseTimebase s) :=
    finish_frame s .none _
  rw [addCause_timebase, holdLine_eq, spoilPassage_eq] at hend
  exact hend

theorem releaseLine_eq (l : Line) : releaseLine l = { l with
    engine := if l.engine = .held then .hunt else l.engine, idle := if l.engine = .held then 0 else l.idle } := by
  unfold releaseLine
  split <;> rfl

/-- The station after the timebase is recovered, before the end of the event (R23, R36, R40). -/
theorem recoverTimebase_frame (s : State) : EventFrame s { s with
    line := { s.line with
      engine := if s.line.engine = .held then .hunt else s.line.engine
      idle := if s.line.engine = .held then 0 else s.line.idle }
    view := if { s.view.causes with timebase := false : SilentCauses }.isEmpty = true ∧ s.view.link = .silent then
        { s.view with
          timebaseLost := false, causes := { s.view.causes with timebase := false }, link := .listen
          listenDue := some (s.clock + 3 * s.start.config.header.interval), heard := false, isolationDue := none }
      else { s.view with timebaseLost := false, causes := { s.view.causes with timebase := false } } }
    (recoverTimebase s) := by
  have hend : EventFrame s
      (removeCause .timebase ((s.setLine (releaseLine s.line)).setView { s.view with timebaseLost := false }))
      (recoverTimebase s) := finish_frame s .none _
  rw [removeCause_timebase, releaseLine_eq] at hend
  exact hend

/-- Settles O36: the loss by `loseTimebase_frame`, the recovery by `recoverTimebase_frame`; during a start sequence neither has an
end of event. -/
theorem timebaseState : Obligations.TimebaseState := by
  refine ⟨fun s hlost => ?_, fun s hlost hstart => ?_, fun s hlost hrun => ?_, fun s hlost hmark hstart => ?_,
    fun s hlost hmark hrun => ?_⟩
  · change execTimebaseLost s = _
    rw [execTimebaseLost, if_pos hlost, markLoss_of_lost hlost]
  · change execTimebaseLost s = _
    rw [execTimebaseLost, if_neg (by simp [hlost]), if_neg (by simp [hstart])]
    rfl
  · have hexec : exec .timebaseLost s = .next (loseTimebase s) := by
      change execTimebaseLost s = _
      rw [execTimebaseLost, if_neg (by simp [hlost]), if_pos hrun]
    have hend := loseTimebase_frame s
    refine ⟨_, hexec, ?_, hend⟩
    rw [hend.condition (by decide)]
    exact congrArg View.timebaseLost hend.view
  · change execTimebaseRecovered s = _
    rw [execTimebaseRecovered, if_pos (mayRecover_of_mark hlost hmark), if_neg (by simp [hstart])]
    rfl
  · intro rest
    have hexec : exec .timebaseRecovered s = .next (recoverTimebase s) := by
      change execTimebaseRecovered s = _
      rw [execTimebaseRecovered, if_pos (mayRecover_of_mark hlost hmark), if_pos hrun]
    exact ⟨_, hexec, recoverTimebase_frame s⟩

end Sys2Proof.Machine
end

section
/-! SUPPORT. The beacon schedule and the balancing step (R31, R133), and the statement about them. -/

namespace Sys2Proof.Machine

/-! ## The schedule -/

/-- The schedule moves on by an interval; outside SILENT the sequence advances and a BEACON is offered (R31). -/
theorem scheduleBeacon_of_silent {s : State} (h : s.view.link = .silent) : scheduleBeacon s = { s with
    view := { s.view with nextBeacon := s.view.nextBeacon + s.start.config.header.interval } } := if_pos h

theorem scheduleBeacon_of_open {s : State} (h : s.view.link ≠ .silent) : scheduleBeacon s = { s with
    view := { s.view with
      nextBeacon := s.view.nextBeacon + s.start.config.header.interval, sequence := s.view.sequence + 1 }
    line := (offer .beacon s).line } := by
  rw [offer_of_open h]
  exact (if_neg h).trans (if_neg h)

theorem balance_of_not_joined {s : State} (h : s.view.link ≠ .joined) : balance s = s := if_neg fun hj => h hj.1

/-- The balancing step touches only the balancing flow, and reads neither the line nor the beacon schedule (R133). -/
theorem balance_eq (s : State) : balance s = { s with
    air := if s.view.link = .joined ∧ s.air.available = true then
        { s.air with balancing := balanceStep s.start.config.air (balanceViews s) s.air.balancing }
      else s.air } := by
  unfold balance
  split <;> rfl

/-! ## The step -/

theorem clampInt_bounds {lo hi : Int} (h : lo ≤ hi) (n : Int) : lo ≤ clampInt lo hi n ∧ clampInt lo hi n ≤ hi := by
  unfold clampInt
  omega

/-- A number moved from within the bounds goes no further than asked, and not the other way. -/
theorem clampInt_add {lo hi n : Int} (hlo : lo ≤ n) (hhi : n ≤ hi) (d : Int) :
    min 0 d ≤ clampInt lo hi (n + d) - n ∧ clampInt lo hi (n + d) - n ≤ max 0 d := by
  unfold clampInt
  omega

/-- A share within a limit does not exceed it, and has the sign of the whole. -/
theorem clampInt_share (limit m : Nat) (whole : Int) :
    let share := clampInt (-limit) limit (whole.tdiv m)
    (-limit ≤ share ∧ share ≤ limit) ∧ (0 ≤ whole → 0 ≤ share) ∧ (whole ≤ 0 → share ≤ 0) := by
  refine ⟨clampInt_bounds (by omega) _, fun h => ?_, fun h => ?_⟩
  · have hquot : 0 ≤ whole.tdiv m := Int.tdiv_nonneg h (Int.natCast_nonneg m)
    unfold clampInt
    omega
  · have hquot : 0 ≤ (-whole).tdiv m := Int.tdiv_nonneg (by omega) (Int.natCast_nonneg m)
    rw [Int.neg_tdiv] at hquot
    unfold clampInt
    omega

section Step

variable (c : AirConfig) (views : List BalanceView) (b : Int)

/-- The deadband, widened by the relief for every open unsealed door of the counted entries (R133). -/
def deadbandOf : Nat := c.deadband + (views.map BalanceView.openUnsealed).sum * c.relief

/-- The step limit of the balancing flow (R133). -/
def stepLimitOf : Nat := c.stepLimit * c.fan2.flow / 100

/-- The own share of the correction, within the step limit (R133). -/
def shareOf : Int :=
  clampInt (-(stepLimitOf c : Int)) (stepLimitOf c)
    ((-(views.map BalanceView.netFlow).sum).tdiv (views.countP BalanceView.available))

theorem balanceStep_eq : balanceStep c views b =
    if (views.map BalanceView.netFlow).sum.natAbs ≤ deadbandOf c views then b
    else clampInt (-(c.fan2.flow : Int)) c.fan2.flow (b + shareOf c views) := rfl

/-- Within the deadband the flow stands (R133). -/
theorem balanceStep_of_within (hlo : -(deadbandOf c views : Int) ≤ (views.map BalanceView.netFlow).sum)
    (hhi : (views.map BalanceView.netFlow).sum ≤ deadbandOf c views) : balanceStep c views b = b := by
  rw [balanceStep_eq, if_pos (by omega)]

/-- Beyond it the own share is added, within the rated flow (R133). -/
theorem balanceStep_of_beyond (h : (views.map BalanceView.netFlow).sum < -(deadbandOf c views : Int) ∨
    deadbandOf c views < (views.map BalanceView.netFlow).sum) :
    balanceStep c views b = clampInt (-(c.fan2.flow : Int)) c.fan2.flow (b + shareOf c views) := by
  rw [balanceStep_eq, if_neg (by omega)]

/-- A step from within the rated flow stays there, moves by the step limit at most, and moves against the net flow (R133). -/
theorem balanceStep_bounds (hlo : -(c.fan2.flow : Int) ≤ b) (hhi : b ≤ c.fan2.flow) :
    -(c.fan2.flow : Int) ≤ balanceStep c views b ∧ balanceStep c views b ≤ c.fan2.flow ∧
      balanceStep c views b - b ≤ stepLimitOf c ∧ b - balanceStep c views b ≤ stepLimitOf c ∧
      (deadbandOf c views < (views.map BalanceView.netFlow).sum → balanceStep c views b ≤ b) ∧
      ((views.map BalanceView.netFlow).sum < -(deadbandOf c views : Int) → b ≤ balanceStep c views b) := by
  obtain ⟨⟨hshareLo, hshareHi⟩, hpos, hneg⟩ :=
    clampInt_share (stepLimitOf c) (views.countP BalanceView.available) (-(views.map BalanceView.netFlow).sum)
  obtain ⟨hdown, hup⟩ := clampInt_add hlo hhi (shareOf c views)
  obtain ⟨hrateLo, hrateHi⟩ :=
    clampInt_bounds (lo := -(c.fan2.flow : Int)) (hi := c.fan2.flow) (by omega) (b + shareOf c views)
  rw [← shareOf] at hshareLo hshareHi hpos hneg
  by_cases hwithin : -(deadbandOf c views : Int) ≤ (views.map BalanceView.netFlow).sum ∧
      (views.map BalanceView.netFlow).sum ≤ deadbandOf c views
  · rw [balanceStep_of_within c views b hwithin.1 hwithin.2]
    omega
  · rw [balanceStep_of_beyond c views b (by omega)]
    omega

end Step

/-! ## The statement -/

/-- The station after its schedule and its balancing step, before the end of the event (R31, R133). -/
theorem balance_scheduleBeacon_of_open {s : State} (h : s.view.link ≠ .silent) : balance (scheduleBeacon s) = { s with
    view := { s.view with
      nextBeacon := s.view.nextBeacon + s.start.config.header.interval, sequence := s.view.sequence + 1 }
    line := (offer .beacon s).line
    air := if s.view.link = .joined ∧ s.air.available = true then
        { s.air with balancing := balanceStep s.start.config.air (balanceViews s) s.air.balancing }
      else s.air } := by
  rw [scheduleBeacon_of_open h, balance_eq]
  rfl

/-- Settles O33: the event by `balance_scheduleBeacon_of_open`, the counted entries one by one, and the step by
`balanceStep_of_within`, `balanceStep_of_beyond` and `balanceStep_bounds`. -/
theorem beaconScheduling : Obligations.BeaconScheduling := by
  refine ⟨fun s hrun hdue => ?_, fun s => ?_, fun c views b => ?_⟩
  · intro interval
    obtain ⟨t, hexec, hend⟩ := event_of_due ((beaconDue_iff s).mpr ⟨hrun, hdue⟩) s .none (balance (scheduleBeacon s)) s
    refine ⟨t, hexec, fun hsilent => ?_, fun hopen => ?_⟩
    · rw [scheduleBeacon_of_silent hsilent, balance_of_not_joined (by simp [hsilent])] at hend
      exact hend
    · rw [balance_scheduleBeacon_of_open hopen] at hend
      exact hend
  · rw [balanceViews, List.filterMap_eq_flatMap_toList]
    congr 1
    funext n
    rw [List.getD_eq_getElem?_getD]
    by_cases hown : n = s.start.strapped
    · simp [hown]
    · cases s.view.entries[n]? with
      | none => simp [hown, PeerEntry.empty]
      | some e => cases hstate : e.state <;> cases hbeacon : e.beacon <;> simp [hown, hstate, hbeacon]
  · exact ⟨balanceStep_of_within c views b, balanceStep_of_beyond c views b, balanceStep_bounds c views b⟩

end Sys2Proof.Machine
end

section
/-! SUPPORT. The shift tracker's operations, each as one equation: the change of page, the changeover, the adoption and the
lower-page settling (R42, R50 to R52, R55); the statements about an accepted SHIFT and a press of the SHIFT input (spec 03). -/

namespace Sys2Proof.Machine

/-! ## The change of page -/

/-- The station that reports a new page: the page is written, and a LEAD_IN which it ends is over (R42, R77). -/
def withPage (p : Fin 4) (s : State) : State := { s with
  shift := { s.shift with page := p }
  lighting := if s.lighting.bay = .leadIn ∧ (s.start.config.pages.getD p.val (Page.builtIn 0)).pageClass = .idle then
      { s.lighting with bay := .vacant, leadInDue := none, vacatingDue := none }
    else s.lighting }

/-- The lighting unit and the heat unit take a page that is another one (R42, R82, R111). -/
theorem changePage_of_ne {p : Fin 4} {s : State} (h : p ≠ s.shift.page) :
    changePage p s = reformHeat (reformChannels (withPage p s)) := by
  rw [changePage, if_neg h]
  dsimp only
  congr 2
  generalize hclass : (s.start.config.pages.getD p.val (Page.builtIn 0)).pageClass = k
  have hworking : isWorking (s.setShift { s.shift with page := p }) = decide (k = .working) := by
    rw [← hclass]
    rfl
  rw [hworking, withPage, hclass]
  cases k with
  | working => simp [State.setShift]
  | idle =>
    by_cases hbay : s.lighting.bay = .leadIn
    · simp [pageBecameIdle, hbay, vacate, State.setShift, State.setLighting]
    · simp [pageBecameIdle, hbay, State.setShift, State.setLighting]

/-- What a change of page touches: the page, and with another page the lighting and the heat unit (R42). -/
theorem changePage_eq (p : Fin 4) (s : State) : changePage p s = { s with
    shift := { s.shift with page := p }
    lighting := if p.val = s.shift.page.val then s.lighting else (reformChannels (withPage p s)).lighting
    heat := if p.val = s.shift.page.val then s.heat else (reformHeat (withPage p s)).heat } := by
  by_cases h : p = s.shift.page
  · rw [changePage, if_pos h, if_pos (congrArg Fin.val h), if_pos (congrArg Fin.val h), h]
  · have hval : p.val ≠ s.shift.page.val := Fin.val_ne_of_ne h
    rw [changePage_of_ne h, if_neg hval, if_neg hval]
    rfl

/-! ## Changeover, adoption, lower-page settling -/

/-- The changeover of the current page starts, or none runs (R52). -/
theorem startChangeover_eq (s : State) : startChangeover s =
    let page := currentPage s
    let due := s.clock + page.changeover * 1000
    { s with
      shift := { s.shift with
        phase := if page.changeover = 0 then .steady else .changeover
        changeoverDue := if page.changeover = 0 then none else some due }
      overrides := if page.changeover = 0 then
          { s.overrides with
            light := withoutIdentity .changeover none s.overrides.light
            heat := withoutIdentity .changeover none s.overrides.heat }
        else
          { s.overrides with
            light := offerEntry (changeoverEntry (.level page.changeoverLevel 0xF) due) s.overrides.light
            heat := offerEntry (changeoverEntry (.setpoint page.occupied) due) s.overrides.heat } } := by
  unfold startChangeover
  dsimp only
  split <;> rfl

/-- An adoption, step by step (R50): the roll of the accumulators, the page, the changeover, the lockout. -/
theorem adopt_eq (e : Byte) (p : Fin 4) (s : State) : adopt e p s =
    let page := s.start.config.pages.getD p.val (Page.builtIn 0)
    let due := s.clock + page.changeover * 1000
    { s with
      shift := { s.shift with
        epoch := some e, page := p
        phase := if page.changeover = 0 then .steady else .changeover
        changeoverDue := if page.changeover = 0 then none else some due
        lockoutDue := some (s.clock + 60000)
        energy := 0, peak := 0, crossings := 0
        summary := match s.shift.epoch with
          | some old => some (summaryOf old s)
          | none => s.shift.summary }
      doors := { s.doors with records := s.doors.records.map (clearDoorAccumulators s.clock) }
      lighting := if p.val = s.shift.page.val then s.lighting else (reformChannels (withPage p s)).lighting
      heat := if p.val = s.shift.page.val then s.heat else (reformHeat (withPage p s)).heat
      overrides := if page.changeover = 0 then
          { s.overrides with
            light := withoutIdentity .changeover none s.overrides.light
            heat := withoutIdentity .changeover none s.overrides.heat }
        else
          { s.overrides with
            light := offerEntry (changeoverEntry (.level page.changeoverLevel 0xF) due) s.overrides.light
            heat := offerEntry (changeoverEntry (.setpoint page.occupied) due) s.overrides.heat } } := by
  unfold adopt
  dsimp only
  rw [changePage_eq, startChangeover_eq]
  rfl

section Adopted

variable (e : Byte) (p : Fin 4) (s : State)

@[simp] theorem adopt_epoch : (adopt e p s).shift.epoch = some e := by rw [adopt_eq]
@[simp] theorem adopt_page : (adopt e p s).shift.page = p := by rw [adopt_eq]
@[simp] theorem adopt_lockoutDue : (adopt e p s).shift.lockoutDue = some (s.clock + 60000) := by rw [adopt_eq]

end Adopted

/-- Lower-page settling: the page, and in CHANGEOVER the fresh entries (R51). -/
theorem settleLowerPage_eq {p : Fin 4} {s : State} (h : p < s.shift.page) : settleLowerPage p s =
    let page := s.start.config.pages.getD p.val (Page.builtIn 0)
    { withPage p s with
      lighting := (reformChannels (withPage p s)).lighting
      heat := (reformHeat (withPage p s)).heat
      overrides := match s.shift.phase, s.shift.changeoverDue with
        | .changeover, some due =>
          { s.overrides with
            light := offerEntry (changeoverEntry (.level page.changeoverLevel 0xF) due) s.overrides.light
            heat := offerEntry (changeoverEntry (.setpoint page.occupied) due) s.overrides.heat }
        | _, _ => s.overrides } := by
  unfold settleLowerPage
  rw [changePage_of_ne h.ne]
  obtain ⟨_, _, _, _, _, ⟨_, _, phase, due⟩⟩ := s
  cases phase <;> cases due <;> rfl

/-! ## The adoption test -/

/-- A frame's page is taken where it is one of the four (R48). -/
theorem deliverShift_of_page {p : Vector Byte 2} (h : p[1].toNat < 4) (s : State) :
    deliverShift p s = adoptionTest p[0] ⟨p[1].toNat, h⟩ s := by
  simp [deliverShift, shiftOf, h]

theorem deliverShift_of_no_page {p : Vector Byte 2} (h : 4 ≤ p[1].toNat) (s : State) : deliverShift p s = s := by
  simp [deliverShift, shiftOf, Nat.not_lt.mpr h]

/-- A newer epoch, or any from UNKNOWN, is adopted (R49). -/
theorem adoptionTest_of_newer {e : Byte} {s : State}
    (h : ∀ cur, s.shift.epoch = some cur → 1 ≤ (e - cur).toNat ∧ (e - cur).toNat ≤ 127) (p : Fin 4) :
    adoptionTest e p s = adopt e p s := by
  unfold adoptionTest
  split
  · rfl
  · rename_i cur hcur
    exact if_pos (decide_eq_true (h cur hcur))

/-- An epoch that is neither newer nor the own one is not adopted (R49). -/
theorem adoptionTest_of_older {e cur : Byte} {s : State} (hcur : s.shift.epoch = some cur) (hne : e ≠ cur)
    (h : ¬(1 ≤ (e - cur).toNat ∧ (e - cur).toNat ≤ 127)) (p : Fin 4) : adoptionTest e p s = s := by
  have hold : epochNewer cur e = false := decide_eq_false h
  simp [adoptionTest, hcur, hold, hne]

/-- The own epoch is not newer: its page is taken where it is lower (R49, R51). -/
theorem adoptionTest_of_own {cur : Byte} {s : State} (hcur : s.shift.epoch = some cur) (p : Fin 4) :
    adoptionTest cur p s = if p < s.shift.page then settleLowerPage p s else s := by
  simp [adoptionTest, hcur, epochNewer]

/-! ## An accepted SHIFT -/

/-- An accepted SHIFT of another station is delivered, and its event ends (R12, R48). -/
theorem exec_shiftReceived {sender : Station} {p : Vector Byte 2} {s : State} (hrun : s.start.running = true)
    (hrecv : s.line.engine = .receive) (hother : sender.toNat ≠ s.start.strapped) :
    exec (.shiftReceived sender p) s = .next (finish s .none (deliverShift p (heard 2 sender p.toList s))) :=
  congrArg Host.Outcome.next (takeFrame_of_other hrun hrecv hother)

section Ended

variable {before s t : State} (h : EventFrame before s t)

include h

theorem EventFrame.epoch : t.shift.epoch = s.shift.epoch := by rw [h.shift]
theorem EventFrame.page : t.shift.page = s.shift.page := by rw [h.shift]
theorem EventFrame.lockoutDue : t.shift.lockoutDue = s.shift.lockoutDue := by rw [h.shift]

end Ended

/-- An event's end follows the change that the event has made. -/
theorem eventFrame_of_eq {before s t : State} {work : Work} (h : s = t) : EventFrame before s (finish before work t) :=
  h ▸ finish_frame before work s

/-- A frame heard touches the line engine, the peer view and the alarm flags alone. -/
theorem exists_heard_eq (kind : Nat) (sender : Station) (payload : List Byte) (s : State) :
    ∃ l v a, heard kind sender payload s = { s with line := l, view := v, alarms := a } :=
  ⟨_, _, _, heard_eq kind sender payload s⟩

/-- Settles O19: the adoption test passes (`adoptionTest_of_newer`), and the adoption is that of `adopt_eq`. -/
theorem shiftAdopted : Obligations.ShiftAdopted := by
  intro s sender p h hrun hrecv hother hnewer u page due entry paged
  have hexec : exec (.shiftReceived sender p) s = .next (finish s .none (deliverShift p u)) :=
    exec_shiftReceived hrun hrecv hother
  obtain ⟨l, v, a, hu⟩ : ∃ l v a, u = { s with line := l, view := v, alarms := a } := exists_heard_eq _ _ _ _
  refine ⟨_, hexec, eventFrame_of_eq ?_⟩
  rw [deliverShift_of_page h, adoptionTest_of_newer (by rwa [hu]), adopt_eq]
  clear_value u
  subst hu
  rfl

/-- Settles O20: a page above 3 is not put to the adoption test, which passes over an older epoch and over the own one
(`adoptionTest_of_own`), but for a lower page, whose settling is that of `settleLowerPage_eq`. -/
theorem shiftNotAdopted : Obligations.ShiftNotAdopted := by
  intro s sender p cur hrun hrecv hother u
  have hexec : exec (.shiftReceived sender p) s = .next (finish s .none (deliverShift p u)) :=
    exec_shiftReceived hrun hrecv hother
  obtain ⟨l, v, a, hu⟩ : ∃ l v a, u = { s with line := l, view := v, alarms := a } := exists_heard_eq _ _ _ _
  have hshift : u.shift = s.shift := by rw [hu]
  have hpage (h : p[1].toNat < 4) : deliverShift p u = adoptionTest p[0] ⟨p[1].toNat, h⟩ u := deliverShift_of_page h u
  have hnone (h : 4 ≤ p[1].toNat) : u = deliverShift p u := (deliverShift_of_no_page h u).symm
  refine ⟨_, hexec, fun h => eventFrame_of_eq (hnone h), fun hcur hne hold => eventFrame_of_eq ?_,
    fun hcur hown hle => eventFrame_of_eq ?_, fun h hcur hown => eventFrame_of_eq ?_⟩
  · by_cases h : p[1].toNat < 4
    · rw [hpage h, adoptionTest_of_older (by rwa [hshift]) hne hold]
    · exact hnone (Nat.not_lt.mp h)
  · by_cases h : p[1].toNat < 4
    · rw [hpage h, hown, adoptionTest_of_own (by rwa [hshift]), if_neg]
      rw [hshift]
      exact Nat.not_lt.mpr hle
    · exact hnone (Nat.not_lt.mp h)
  · have hlow : (⟨p[1].toNat, h.trans s.shift.page.isLt⟩ : Fin 4) < u.shift.page := by rwa [hshift]
    rw [hpage (h.trans s.shift.page.isLt), hown, adoptionTest_of_own (by rwa [hshift]), if_pos hlow, settleLowerPage_eq hlow]
    clear_value u
    subst hu
    rfl

/-! ## The SHIFT input -/

/-- A changed raw level starts the stable time again (R45). -/
theorem exec_shiftInputChange_raw {pressed : Bool} {s : State} (hrun : s.start.running = true)
    (hraw : s.shift.input.raw ≠ pressed) : exec (.shiftInputChange pressed .raw) s = .next { s with
      shift := { s.shift with input := { s.shift.input with raw := pressed, since := s.clock } } } := by
  have hadmits : shiftInputAdmits .raw pressed s = true := by simp [shiftInputAdmits, Debounced.admits, hrun, hraw]
  exact congrArg Host.Outcome.next (if_pos hadmits)

/-- A raw level that has held becomes the debounced one; a press after the first level is taken (R45, R46). -/
theorem exec_shiftInputChange_stable {pressed : Bool} {s : State} (h : shiftInputAdmits .stable pressed s = true) :
    exec (.shiftInputChange pressed .stable) s = .next
      (if pressed = true ∧ s.shift.input.level ≠ none then
        finish s .none (press (onShiftInput (Debounced.take pressed) s))
      else onShiftInput (Debounced.take pressed) s) :=
  congrArg Host.Outcome.next (if_pos h)

theorem press_of_lockout {s : State} (h : s.shift.lockoutDue ≠ none) : press s = s := if_neg h

theorem press_of_free {s : State} (h : s.shift.lockoutDue = none) :
    press s = offer (.shift (originEpoch s.shift.epoch) (currentPage s).next)
      (adopt (originEpoch s.shift.epoch) (currentPage s).next s) := if_pos h

/-- Settles O37: the raw change, then the debounced one, whose press is taken outside lockout (`press_of_free`). -/
theorem shiftPress : Obligations.ShiftPress := by
  intro s pressed hrun
  refine ⟨exec_shiftInputChange_raw hrun, fun hraw hheld hlevel => ?_⟩
  intro u e page
  have hadmits := (shiftInputAdmits_iff s pressed).mpr ⟨hrun, hlevel, hraw, hheld⟩
  have htake : onShiftInput (Debounced.take pressed) s = u := rfl
  refine ⟨_, exec_shiftInputChange_stable hadmits, fun hstored => ?_, fun hpressed hknown hlocked => ?_,
    fun hpressed hknown hfree => ?_⟩
  · rw [if_neg, htake]
    rintro ⟨rfl, hne⟩
    rcases hstored with h | h
    · exact absurd h (by decide)
    · exact hne h
  · rw [if_pos ⟨hpressed, by simp [hknown]⟩, htake]
    have hpress : press u = u := press_of_lockout hlocked
    exact eventFrame_of_eq hpress.symm
  · rw [if_pos ⟨hpressed, by simp [hknown]⟩, htake]
    have hpress : press u = offer (.shift e page) (adopt e page u) := press_of_free hfree
    rw [hpress]
    have hend : EventFrame s (offer (.shift e page) (adopt e page u)) (finish s .none _) :=
      finish_frame s .none _
    refine ⟨hend, ?_, ?_, ?_⟩
    · rw [hend.epoch, offer_shift, adopt_epoch]
    · rw [hend.page, offer_shift, adopt_page]
    · rw [hend.lockoutDue, offer_shift, adopt_lockoutDue]

end Sys2Proof.Machine
end

section
/-! SUPPORT. Channels and fans at a new setting, in the terms of their rules (R80 to R86, R127 to R130), and the commands that
move them without an end of event; the statement about the fade, the coast and the ramp. -/

namespace Sys2Proof.Machine

/-! ## Channels -/

section Track

variable {now : Nat} {c : Channel}

/-- A fall is taken at once (R86). -/
theorem trackChannel_of_le (h : min c.desired c.granted ≤ c.present) : trackChannel now c =
    { c with target := min c.desired c.granted, present := min c.desired c.granted, rise := none } := if_pos h

/-- Below its target a channel goes on with its rise, or begins one (R85). -/
theorem trackChannel_of_lt (h : c.present < min c.desired c.granted) : trackChannel now c =
    { c with target := min c.desired c.granted, rise := some (c.rise.getD (c.present, now)) } := if_neg (Nat.not_le.mpr h)

end Track

/-- A channel keeps its choice as it follows its target (R84). -/
theorem trackChannel_choice (now : Nat) (c : Channel) :
    (trackChannel now c).desired = c.desired ∧ (trackChannel now c).tier = c.tier := by
  rcases Nat.lt_or_ge c.present (min c.desired c.granted) with h | h
  · rw [trackChannel_of_lt h]
    exact ⟨rfl, rfl⟩
  · rw [trackChannel_of_le h]
    exact ⟨rfl, rfl⟩

/-- What a channel's mode and its row of Table 17 choose (R80 to R82). -/
theorem channelChoice_row (s : State) (i : Nat) (mode : ChannelMode) :
    ChannelRow s i mode (channelChoice mode (currentPage s) s.lighting.bay s.overrides.light i).1
      (channelChoice mode (currentPage s) s.lighting.bay s.overrides.light i).2 := by
  have hfollow (mode : ChannelMode) (h : mode = .follow ∨ mode = .followInverted) :
      channelChoice mode (currentPage s) s.lighting.bay s.overrides.light i =
        ((followChoice (currentPage s) s.lighting.bay i (rulingFor i s.overrides.light)).1,
          some (followChoice (currentPage s) s.lighting.bay i (rulingFor i s.overrides.light)).2) := by
    rcases h with rfl | rfl <;> rfl
  refine ⟨fun h => ?_, fun h => ?_, fun h => ⟨fun e percent named hrule heffect => ?_, fun hrule => ?_⟩⟩
  · subst h
    exact ⟨rfl, rfl⟩
  · subst h
    exact ⟨rfl, rfl⟩
  · have hruling : rulingFor i s.overrides.light = some e := hrule
    rw [hfollow mode h, hruling]
    simp [followChoice, heffect]
  · have hruling : rulingFor i s.overrides.light = none := hrule
    rw [hfollow mode h, hruling]
    cases s.lighting.bay <;> exact ⟨rfl, rfl⟩

/-- A channel of a station that reports a change has chosen by its row, and follows its target under the grant it holds. -/
theorem reformChannels_channel {s : State} {i : Nat} {c : ChannelConfig} {ch x : Channel}
    (hc : s.start.config.lighting.channels[i]? = some c) (hch : s.lighting.channels[i]? = some ch)
    (hx : (reformChannels s).lighting.channels[i]? = some x) :
    ChannelRow s i c.mode x.desired x.tier ∧ x = trackChannel s.clock { ch with
      desired := x.desired, tier := x.tier, granted := if x.tier = none then 0 else ch.granted } := by
  have hrow := channelChoice_row s i c.mode
  rw [reformChannels_getElem? s i c hc, hch, Option.map_some, Option.some.injEq] at hx
  generalize channelChoice c.mode (currentPage s) s.lighting.bay s.overrides.light i = choice at hrow hx
  obtain ⟨hdesired, htier⟩ := trackChannel_choice s.clock (chooseChannel choice ch)
  rw [hx] at hdesired htier
  rw [hdesired, htier]
  exact ⟨hrow, hx.symm⟩

/-! ## Fans -/

section Drive

variable {now : Nat} {k : FanConfig} {f : Fan}

/-- A fan with its target speed (R127). -/
def aimFan (f : Fan) : Fan := { f with target := min f.desired f.granted }

theorem driveFan_of_stopped (h : f.state = .stopped) :
    driveFan now k f = if 0 < (aimFan f).target then startFan now k (aimFan f) else aimFan f := by
  obtain ⟨_⟩ := f
  cases h
  rfl

theorem driveFan_of_coasting (h : f.state = .coasting) : driveFan now k f =
    if 0 < (aimFan f).target ∧ f.direction = some f.requested then startFan now k (aimFan f) else aimFan f := by
  obtain ⟨_⟩ := f
  cases h
  rfl

/-- Without a target, or with another direction requested, a running fan coasts (R128). -/
theorem driveFan_of_turned (h : f.state = .running) (hturn : (aimFan f).target = 0 ∨ f.direction ≠ some f.requested) :
    driveFan now k f = coastFan now k (aimFan f) := by
  obtain ⟨_⟩ := f
  cases h
  exact if_pos hturn

/-- A running fan that goes on in its direction takes a lower speed at once, and rises to a higher one (R130). -/
theorem driveFan_of_steady (h : f.state = .running) (hpos : 0 < (aimFan f).target) (hdir : f.direction = some f.requested) :
    driveFan now k f =
      if (aimFan f).target ≤ f.present then { aimFan f with present := (aimFan f).target, rampDue := none }
      else if f.rampDue = none then beginRise now k (aimFan f)
      else aimFan f := by
  obtain ⟨_⟩ := f
  cases h
  exact if_neg (not_or.mpr ⟨hpos.ne', not_not.mpr hdir⟩)

end Drive

/-! ## Commands without an end of event -/

/-- The draws are formed, and nothing else (R54, R124, R156). -/
theorem measure_draws (s : State) : DrawFrame s (measure s) where
  rest := by simp [measure, State.setAlloc, State.setShift, State.setAir]
  peak := measured_peak s

/-- A command that changes an output and forms the draws. -/
theorem draws_of_due {c : Prop} [Decidable c] (h : c) {u v : State} (huv : u = v) (s : State) :
    ∃ t, (Host.Outcome.next (if c then measure u else s) : Answer) = .next t ∧ DrawFrame v t :=
  ⟨_, congrArg _ (if_pos h), huv ▸ measure_draws u⟩

/-- A rise takes the level that the fade gives, which is above the present one (R85). -/
theorem advanceRise_of_below {now fade l0 t0 : Nat} {c : Channel} (hrise : c.rise = some (l0, t0))
    (h : c.present < riseLevel fade c.target l0 t0 now) : advanceRise now fade c = { c with
      present := riseLevel fade c.target l0 t0 now
      rise := if riseLevel fade c.target l0 t0 now < c.target then some (l0, t0) else none } := by
  simp only [advanceRise, hrise, max_eq_right h.le]

/-- The next whole percent of a rise lies above the present level (R85). -/
theorem lt_riseLevel {now fade l0 t0 : Nat} {c : Channel} (hbelow : c.present < c.target) (hstart : l0 ≤ c.present)
    (hstep : (c.present + 1 - l0) * 1000 ≤ fade * (now - t0)) : c.present < riseLevel fade c.target l0 t0 now := by
  unfold riseLevel
  generalize fade * (now - t0) = n at hstep ⊢
  omega

/-- A change of the element at a place is a change to one value. -/
theorem updateAt_of_getElem? {α : Type} {i : Nat} {l : List α} {x : α} (h : l[i]? = some x) (f : α → α) :
    updateAt i f l = updateAt i (fun _ => f x) l := by
  refine List.ext_getElem? fun j => ?_
  rw [updateAt_getElem?, updateAt_getElem?]
  split
  · rename_i hj
    rw [hj, h]
    rfl
  · rfl

/-- The configured values of fan 1 (number 0) or fan 2 (number 1). -/
def fanConfigOf (n : Fin 2) (s : State) : FanConfig :=
  if n = 0 then s.start.config.air.fan1 else s.start.config.air.fan2

/-- A change of one fan. -/
theorem onFan_eq (n : Fin 2) (g : FanConfig → Fan → Fan) {s : State} {x : Fan}
    (h : g (fanConfigOf n s) (fanOfNumber n s.air) = x) :
    onFan n g s = { s with air := if n = 0 then { s.air with fan1 := x } else { s.air with fan2 := x } } := by
  subst h
  unfold onFan fanConfigOf fanOfNumber
  split <;> rfl

/-- Settles O44: the channel by `trackChannel_of_le` and `trackChannel_of_lt`, the fan by the lemma of its state, a reported
change by `reformChannels_channel`, and the three commands by `draws_of_due`. -/
theorem fadeCoastAndRamp : Obligations.FadeCoastAndRamp := by
  refine ⟨fun now c => ?_, fun now k f => ?_, fun s => ?_, fun s hrun =>
    ⟨fun i c l0 t0 hc hrise => ?_, fun n due hdue => ?_⟩⟩
  · refine ⟨trackChannel_of_le, fun hlt hrise => ?_, fun hlt hrise => ?_⟩
    · rw [trackChannel_of_lt hlt, hrise]
      rfl
    · obtain ⟨r, hr⟩ := Option.ne_none_iff_exists'.mp hrise
      rw [trackChannel_of_lt hlt, hr]
      rfl
  · refine ⟨driveFan_of_stopped, driveFan_of_coasting, driveFan_of_turned, fun h hpos hdir =>
      ⟨fun hle => ?_, fun hlt hramp => ?_, fun hlt hramp => ?_⟩⟩
    · exact (driveFan_of_steady h hpos hdir).trans (if_pos hle)
    · exact (driveFan_of_steady h hpos hdir).trans ((if_neg (Nat.not_le.mpr hlt)).trans (if_pos hramp))
    · exact (driveFan_of_steady h hpos hdir).trans ((if_neg (Nat.not_le.mpr hlt)).trans (if_neg hramp))
  · exact ⟨reformChannels_eq s, reformChannels_count s, fun i c ch x hc hch hx => reformChannels_channel hc hch hx⟩
  · intro fade level hfade hbelow hstart hstep hsince rising
    have hlevel : c.present < level := lt_riseLevel hbelow hstart hstep
    have hstepped : stepRise i s = { s with
        lighting := { s.lighting with channels := updateAt i.val (fun _ => rising) s.lighting.channels } } := by
      rw [stepRise, updateAt_of_getElem? hc, advanceRise_of_below hrise hlevel]
      rfl
    obtain ⟨t, hexec, hdraw⟩ := draws_of_due
      ((riseStepDue_iff hfade i).mpr ⟨hrun, c, l0, t0, hc, hrise, hbelow, hsince, hstep⟩) hstepped s
    exact ⟨t, hexec, hlevel, hdraw⟩
  · intro f k put rising
    refine ⟨fun hstate hcoast hzero => ?_, fun hstate hcoast hpos => ?_, fun hstate hramp => ?_⟩
    · exact draws_of_due ((coastDue_iff s n).mpr ⟨hrun, hstate, due, hcoast, hdue⟩)
        (onFan_eq n (coastExpires s.clock) (if_neg (Nat.not_lt.mpr hzero.le))) s
    · exact draws_of_due ((coastDue_iff s n).mpr ⟨hrun, hstate, due, hcoast, hdue⟩)
        (onFan_eq n (coastExpires s.clock) (if_pos hpos)) s
    · exact draws_of_due ((rampDue_iff s n).mpr ⟨hrun, hstate, due, hramp, hdue⟩)
        (onFan_eq n (rampExpires s.clock) rfl) s

end Sys2Proof.Machine
end

section
/-! SUPPORT. The expiries of the changeover, lockout, lead-in and vacating timers and of override entries, and the waiting
commands that move the bay first (assumption log 30); the statement about them (R47, R53, R76, R77, R139). -/

namespace Sys2Proof.Machine

/-! ## Commands that move the bay -/

/-- A presence input that is not asserted yet moves the bay (R69, R76). -/
theorem movesBay_presenceAsserted {s : State} {z : Fin 4} {x : Zone} (hrun : s.start.running = true)
    (hx : s.traffic.zones[z.val]? = some x) (hclear : x.asserted = false) : movesBay s (.presenceAsserted z) = true := by
  simp [movesBay, hrun, zoneOf, List.getD_eq_getElem?_getD, hx, hclear]

/-- A count below 15 advances, and the bay is occupied (R68, R72). -/
theorem occupied_changeCount_one {t : Traffic} (h : t.count < 15) : occupied (changeCount 1 t) = true := by
  have hrange : ¬((t.count : Int) + 1 < 0 ∨ 15 < (t.count : Int) + 1) := by omega
  have hcount : (changeCount 1 t).count = ((t.count : Int) + 1).toNat := by
    simp only [changeCount, if_neg hrange]
  have hpos : 0 < (changeCount 1 t).count := by omega
  simp [occupied, hpos]

theorem takeCrossing_traffic (dir : Travel) (s : State) : (takeCrossing dir s).traffic =
    changeCount (crossingChange dir) { s.traffic with gateCount := s.traffic.gateCount + 1 } := by
  simp [takeCrossing]

/-- The end of a passage at position -4 is a crossing DOWN, into the bay (R59, R64). -/
theorem occupied_endPassage_down {s : State} (hpos : s.traffic.position = -4) (hcount : s.traffic.count < 15) :
    occupied (endPassage s).traffic = true := by
  have hend : (endPassage s).traffic = clearPassage (takeCrossing .down s).traffic := by
    simp [endPassage, hpos, crossingOf]
  rw [hend, takeCrossing_traffic]
  exact occupied_changeCount_one (t := { s.traffic with gateCount := s.traffic.gateCount + 1 }) hcount

/-- Beam A clearing at position -3 completes a crossing into the bay (R59). -/
theorem movesBay_gateBeamChange {s : State} (hrun : s.start.running = true) (hgate : s.traffic.gate = .ok)
    (htrack : s.traffic.tracking = true) (ha : s.traffic.beamA = true) (hb : s.traffic.beamB = false)
    (hpos : s.traffic.position = -3) (hcount : s.traffic.count < 15) : movesBay s (.gateBeamChange .a) = true := by
  have hchange : beamChange .a s = endPassage (s.setTraffic (decoderStep s.clock (-1) (toggleBeam .a s.traffic))) := by
    simp [beamChange, toggleBeam, hgate, htrack, ha, hb, gateStep]
  have hocc : occupied (beamChange .a s).traffic = true := by
    rw [hchange]
    exact occupied_endPassage_down (by simp [decoderStep, toggleBeam, hpos]) (by simpa [decoderStep, toggleBeam] using hcount)
  simp [movesBay, gateSampled, hrun, hgate, hocc]

/-- A lead-in trigger moves a bay whose lead-in or vacating timer has run out (R77). -/
theorem leadInTrigger_ne {now leadIn due : Nat} {l : Lighting} (hbay : l.bay ≠ .occupied) (hlead : 1 ≤ leadIn)
    (hdue : due ≤ now) (htimer : l.leadInDue = some due ∨ l.vacatingDue = some due) : leadInTrigger now leadIn l ≠ l := by
  intro heq
  rw [leadInTrigger, if_neg hbay] at heq
  have hleadIn : some (now + leadIn * 1000) = l.leadInDue := congrArg Lighting.leadInDue heq
  have hvacating : none = l.vacatingDue := congrArg Lighting.vacatingDue heq
  rcases htimer with h | h
  · rw [h, Option.some.injEq] at hleadIn
    omega
  · rw [h] at hvacating
    exact absurd hvacating (by simp)

/-- The count of a HANDOFF reaches the traffic unit alone (R66). -/
theorem handoffCount_eq (sender : Station) (h : Handoff) (s : State) : handoffCount sender h s =
    s.setTraffic (if isLower sender s then lowerHandoff h s.traffic else s.traffic) := by
  unfold handoffCount
  split <;> rfl

/-- A HANDOFF that lights the bay triggers the lead-in (R73, R77). -/
theorem deliverHandoff_lighting {sender : Station} {p : Vector Byte 4} {h : Handoff} {s : State} (hp : handoffOf p = some h)
    (hwork : isWorking s = true)
    (hreach : leadInReach h.speed (distanceAhead s.start.strapped sender.toNat h.direction) = true) :
    (deliverHandoff sender p s).lighting = leadInTrigger s.clock s.start.config.lighting.leadIn s.lighting := by
  simp only [deliverHandoff, hp, handoffCount_eq, handoffLeadIn]
  rw [if_pos]
  · rfl
  · exact Bool.and_eq_true_iff.mpr ⟨hwork, hreach⟩

/-- Which HANDOFFs light the bay, in the terms of their bytes (R73, Table 46). -/
theorem handoffOf_reaches {own : Nat} {sender : Station} {p : Vector Byte 4} (hdir : p[0].toNat / 16 < 2)
    (hahead : let ahead : Int := if p[0].toNat / 16 = 0 then (own : Int) - ((sender.toNat : Int) + 1)
        else (sender.toNat : Int) - own
      (ahead = 1 ∧ p[0].toNat % 16 ≠ 2) ∨ (ahead = 2 ∧ p[0].toNat % 16 = 0)) :
    ∃ h, handoffOf p = some h ∧ leadInReach h.speed (distanceAhead own sender.toNat h.direction) = true := by
  have hreach (ahead : Int) (n : Nat) (h : (ahead = 1 ∧ n ≠ 2) ∨ (ahead = 2 ∧ n = 0)) :
      leadInReach (speedOfCode n) ahead = true := by
    rcases h with ⟨rfl, hn⟩ | ⟨rfl, rfl⟩
    · unfold speedOfCode
      split
      · rfl
      · rfl
      · exact absurd rfl hn
      · rfl
    · rfl
  by_cases hup : p[0].toNat / 16 = 0
  · rw [if_pos hup] at hahead
    exact ⟨_, if_pos hup, hreach _ _ hahead⟩
  · have hdown : p[0].toNat / 16 = 1 := by omega
    rw [if_neg hup] at hahead
    exact ⟨_, (if_neg hup).trans (if_pos hdown), hreach _ _ hahead⟩

/-- A HANDOFF that triggers the lead-in moves a bay whose lead-in or vacating timer has run out (R73, R77). -/
theorem movesBay_handoffReceived {sender : Station} {p : Vector Byte 4} {h : Handoff} {due : Nat} {s : State}
    (hrun : s.start.running = true) (hrecv : s.line.engine = .receive) (hother : sender.toNat ≠ s.start.strapped)
    (hp : handoffOf p = some h) (hwork : isWorking s = true)
    (hreach : leadInReach h.speed (distanceAhead s.start.strapped sender.toNat h.direction) = true)
    (hbay : s.lighting.bay ≠ .occupied) (hlead : 1 ≤ s.start.config.lighting.leadIn) (hdue : due ≤ s.clock)
    (htimer : s.lighting.leadInDue = some due ∨ s.lighting.vacatingDue = some due) :
    movesBay s (.handoffReceived sender p) = true := by
  have hmoved : (deliverHandoff sender p s).lighting ≠ s.lighting := by
    rw [deliverHandoff_lighting hp hwork hreach]
    exact leadInTrigger_ne hbay hlead hdue htimer
  simp [movesBay, mayAccept_of_receive hrun hrecv, hother, hmoved]

/-! ## Waiting commands -/

theorem bayMoveWaits_of_mem {s : State} {c : Instr} (hc : c ∈ s.pending) (h : movesBay s c = true) : bayMoveWaits s = true :=
  List.any_eq_true.mpr ⟨c, hc, h⟩

/-- Only a HANDOFF, a presence input and a beam can move the bay. -/
theorem bayMoveWaits_of_none {s : State} (h : ∀ c ∈ s.pending, (∀ sender p, c ≠ .handoffReceived sender p) ∧
    (∀ z, c ≠ .presenceAsserted z) ∧ ∀ beam, c ≠ .gateBeamChange beam) : bayMoveWaits s = false := by
  rw [bayMoveWaits, List.any_eq_false]
  intro c hc
  obtain ⟨hhandoff, hpresence, hbeam⟩ := h c hc
  unfold movesBay
  split
  · exact absurd rfl (hhandoff _ _)
  · exact absurd rfl (hpresence _)
  · exact absurd rfl (hbeam _)
  · simp

/-! ## The expiries -/

/-- An expiry of the lead-in or vacating timer waits for a command that moves the bay, or vacates it (R76 to R78). -/
theorem vacates_of_due {due : Bool} (hdue : due = true) (s : State) :
    let answer : Answer := .next (if due && !bayMoveWaits s then finish s .none (s.setLighting (vacate s.lighting)) else s)
    (bayMoveWaits s = false → ∃ t, answer = .next t ∧ EventFrame s (s.setLighting (vacate s.lighting)) t) ∧
      (bayMoveWaits s = true → answer = .next s) := by
  refine ⟨fun h => ⟨_, congrArg _ (if_pos ?_), finish_frame s .none _⟩, fun h => congrArg _ (if_neg ?_)⟩
  · simp [hdue, h]
  · simp [h]

/-- A stack without the entry of an identity, entry by entry (R138). -/
theorem withoutIdentity_eq (source : SourceKind) (origin : Option Station) (stack : List OverrideEntry) :
    withoutIdentity source origin stack = stack.filter fun e => decide ¬(e.source = source ∧ e.origin = origin) := by
  refine List.filter_congr fun e _ => ?_
  rw [sameIdentity, decide_not, Bool.decide_and]

/-- Only the named stack loses the entry (R139). -/
theorem onStackOf_withoutIdentity (k : StackId) (source : SourceKind) (origin : Option Station) (s : State) :
    let without (named : StackId) (l : List OverrideEntry) : List OverrideEntry :=
      if k = named then l.filter fun e => decide ¬(e.source = source ∧ e.origin = origin) else l
    onStackOf k (withoutIdentity source origin) s = { s with overrides :=
      { light := without .light s.overrides.light, heat := without .heat s.overrides.heat
        vent := without .vent s.overrides.vent } } := by
  intro without
  cases k <;> simp [without, onStackOf, onStack, withoutIdentity_eq, State.setOverrides]

/-- Settles O38: the bay timers by `vacates_of_due`, each waiting command by its `movesBay` lemma, the other expiries by
`event_of_due`. -/
theorem timersExpire : Obligations.TimersExpire := by
  intro s due hrun hdue vacant
  refine ⟨fun h => ?_, fun h => ?_, fun h => ?_, fun h => ?_, bayMoveWaits_of_none, fun htimer c hc hmove => ?_,
    fun k x hexpiry => ?_⟩
  · exact event_of_due ((changeoverDue_iff s).mpr ⟨hrun, due, h, hdue⟩) s .none (endChangeover s) s
  · exact congrArg Host.Outcome.next (if_pos ((lockoutDue_iff s).mpr ⟨hrun, due, h, hdue⟩))
  · exact vacates_of_due ((leadInDue_iff s).mpr ⟨hrun, due, h, hdue⟩) s
  · exact vacates_of_due ((vacatingDue_iff s).mpr ⟨hrun, due, h, hdue⟩) s
  · refine bayMoveWaits_of_mem hc ?_
    rcases hmove with ⟨z, x, rfl, hx, hclear⟩ | ⟨sender, p, rfl, hrecv, hother, hdir, hwork, hbay, hlead, hahead⟩ |
      ⟨rfl, hgate, htrack, ha, hb, hpos, hcount⟩
    · exact movesBay_presenceAsserted hrun hx hclear
    · obtain ⟨h, hp, hreach⟩ := handoffOf_reaches hdir hahead
      exact movesBay_handoffReceived hrun hrecv hother hp hwork hreach hbay hlead hdue htimer
    · exact movesBay_gateBeamChange hrun hgate htrack ha hb hpos hcount
  · intro without hx
    have hmem : x ∈ stackOf s.overrides k := by
      cases k <;> exact hx
    have hexpire := (expiryDue_iff s k x.source x.origin).mpr ⟨hrun, x, hmem, rfl, rfl, due, hexpiry, hdue⟩
    refine ⟨_, congrArg Host.Outcome.next (if_pos hexpire), ?_⟩
    exact eventFrame_of_eq (onStackOf_withoutIdentity k x.source x.origin s).symm

end Sys2Proof.Machine
end

section
/-! SUPPORT. The epoch and the page, command by command: what leaves them, what adopts a newer epoch, and what takes a lower
page; the statement that the epoch only moves forward (R49 to R51, R56). -/

namespace Sys2Proof.Machine

/-! ## Epochs that stand or advance -/

/-- The epoch and the page of `t` are those of `s`. -/
structure SameEpoch (s t : State) : Prop where
  epoch : t.shift.epoch = s.shift.epoch
  page : t.shift.page = s.shift.page

/-- The epoch of `t` is that of `s` with its page or a lower one, the first one known, or a newer one (R49 to R51). -/
def EpochForward (s t : State) : Prop :=
  (t.shift.epoch = s.shift.epoch ∧ t.shift.page ≤ s.shift.page) ∨
    ∃ new, t.shift.epoch = some new ∧ ∀ old, s.shift.epoch = some old →
      1 ≤ (new - old).toNat ∧ (new - old).toNat ≤ 127

section

variable {s t u : State}

theorem SameEpoch.of_shift (h : t.shift = s.shift) : SameEpoch s t := ⟨congrArg _ h, congrArg _ h⟩

theorem SameEpoch.refl (s : State) : SameEpoch s s := .of_shift rfl

theorem SameEpoch.trans (h : SameEpoch s t) (k : SameEpoch t u) : SameEpoch s u :=
  ⟨k.epoch.trans h.epoch, k.page.trans h.page⟩

/-- A change elsewhere may come first. -/
theorem SameEpoch.after (h : SameEpoch t u) (k : t.shift = s.shift) : SameEpoch s u := (SameEpoch.of_shift k).trans h

theorem SameEpoch.forward (h : SameEpoch s t) : EpochForward s t := .inl ⟨h.epoch, h.page.le⟩

/-- What leaves epoch and page may come before and after. -/
theorem EpochForward.after (h : EpochForward t u) (k : SameEpoch s t) : EpochForward s u := by
  rwa [EpochForward, k.epoch, k.page] at h

theorem EpochForward.before (h : EpochForward s t) (k : SameEpoch t u) : EpochForward s u := by
  rwa [EpochForward, ← k.epoch, ← k.page] at h

end

theorem sameEpoch_finish (before : State) (work : Work) (s : State) : SameEpoch s (finish before work s) :=
  ⟨(finish_frame before work s).epoch, (finish_frame before work s).page⟩

theorem sameEpoch_finishLink (before s : State) : SameEpoch s (finishLink before s) := by
  rcases finishLink_cases before s with h | h
  · rw [h]
    exact .refl s
  · rw [h]
    exact sameEpoch_finish before .none s

theorem sameEpoch_measure (s : State) : SameEpoch s (measure s) := by
  constructor <;> simp [measure]

/-! ## The shift tracker -/

/-- An adoption takes a newer epoch, or the first one known (R50). -/
theorem forward_adopt {e : Byte} {s : State}
    (h : ∀ old, s.shift.epoch = some old → 1 ≤ (e - old).toNat ∧ (e - old).toNat ≤ 127) (p : Fin 4) :
    EpochForward s (adopt e p s) := .inr ⟨e, adopt_epoch e p s, h⟩

/-- The adoption test adopts what is newer, and takes a lower page with the own epoch (R49, R51). -/
theorem forward_adoptionTest (e : Byte) (p : Fin 4) (s : State) : EpochForward s (adoptionTest e p s) := by
  cases hcur : s.shift.epoch with
  | none =>
    rw [adoptionTest_of_newer (by simp [hcur])]
    exact forward_adopt (by simp [hcur]) p
  | some cur =>
    by_cases hnewer : 1 ≤ (e - cur).toNat ∧ (e - cur).toNat ≤ 127
    · have h : ∀ old, s.shift.epoch = some old → 1 ≤ (e - old).toNat ∧ (e - old).toNat ≤ 127 := by
        rintro old hold
        cases hcur.symm.trans hold
        exact hnewer
      rw [adoptionTest_of_newer h]
      exact forward_adopt h p
    · by_cases hown : e = cur
      · subst hown
        rw [adoptionTest_of_own hcur]
        split
        · rename_i hlow
          rw [settleLowerPage_eq hlow]
          exact .inl ⟨rfl, hlow.le⟩
        · exact (SameEpoch.refl s).forward
      · rw [adoptionTest_of_older hcur hown hnewer]
        exact (SameEpoch.refl s).forward

/-- The epoch an origination forms is newer than the one it follows (R46). -/
theorem originEpoch_newer {cur : Option Byte} {old : Byte} (h : cur = some old) :
    1 ≤ (originEpoch cur - old).toNat ∧ (originEpoch cur - old).toNat ≤ 127 := by
  subst h
  have hnext : originEpoch (some old) - old = 1 := by
    change old + 1 - old = 1
    rw [add_sub_cancel_left]
  rw [hnext]
  decide

theorem forward_press (s : State) : EpochForward s (press s) := by
  by_cases hlock : s.shift.lockoutDue = none
  · rw [press_of_free hlock]
    exact (forward_adopt (fun _ => originEpoch_newer) _).before (.of_shift (offer_shift _ _))
  · rw [press_of_lockout hlock]
    exact (SameEpoch.refl s).forward

/-! ## Accepted frames -/

theorem sameEpoch_heard (kind : Nat) (sender : Station) (payload : List Byte) (s : State) :
    SameEpoch s (heard kind sender payload s) := .of_shift (heard_frame kind sender payload s).shift

theorem sameEpoch_addCause (cause : SilentCause) (s : State) : SameEpoch s (addCause cause s) := by
  unfold addCause
  dsimp only
  split <;> exact ⟨rfl, rfl⟩

/-- A frame moves the epoch forward where its delivery and the close of its event do. -/
theorem forward_takeFrame (kind : Nat) (sender : Station) (payload : List Byte) {deliver : State → State}
    {close : State → State → State} (s : State) (h : ∀ u, EpochForward u (close s (deliver u))) :
    EpochForward s (takeFrame kind sender payload deliver close s) := by
  have hheard := sameEpoch_heard kind sender payload s
  rcases takeFrame_cases kind sender payload deliver close s with ⟨-, ht⟩ | ⟨-, -, ht⟩ | ⟨-, -, ht⟩
  · rw [ht]
    exact (SameEpoch.refl s).forward
  · rw [ht]
    exact (hheard.trans ((sameEpoch_addCause _ _).trans (sameEpoch_finish _ _ _))).forward
  · rw [ht]
    exact (h _).after hheard

theorem forward_event (kind : Nat) (sender : Station) (payload : List Byte) {deliver : State → State} (s : State)
    (h : ∀ u, EpochForward u (deliver u)) :
    EpochForward s (takeFrame kind sender payload deliver (fun b t => finish b .none t) s) :=
  forward_takeFrame kind sender payload s fun u => (h u).before (sameEpoch_finish s .none _)

theorem forward_passFrame (kind : Nat) (sender : Station) (payload : List Byte) (s : State) :
    EpochForward s (passFrame kind sender payload s) :=
  forward_takeFrame kind sender payload s fun u => (sameEpoch_finishLink s u).forward

theorem forward_takeDirective (kind : DirectiveKind) (sender : Station) (p : Vector Byte 9) {deliver : State → State}
    (s : State) (h : ∀ u, SameEpoch u (deliver u)) : EpochForward s (takeDirective kind sender p deliver s) := by
  unfold takeDirective
  (repeat' split)
  · exact forward_event _ _ _ s fun u => (h u).forward
  · exact forward_passFrame _ _ _ s
  · exact (SameEpoch.refl s).forward

theorem forward_takeQuery (row : Nat) (sender : Station) (p : Vector Byte 3) (s : State) :
    EpochForward s (takeQuery row sender p s) := by
  unfold takeQuery
  (repeat' split)
  · exact forward_takeFrame _ _ _ s fun u =>
      ((SameEpoch.of_shift (offer_shift _ u)).trans (sameEpoch_finishLink s _)).forward
  · exact forward_passFrame _ _ _ s
  · exact (SameEpoch.refl s).forward

/-! ## Deliveries -/

section Deliver

variable (sender : Station) (s : State)

theorem forward_deliverBeacon (p : Vector Byte 24) : EpochForward s (deliverBeacon sender p s) := by
  have hshift : ∀ t, EpochForward t (beaconShift (beaconOf p) t) := fun t => by
    unfold beaconShift
    split
    · exact forward_adoptionTest _ _ t
    · exact (SameEpoch.refl t).forward
  have hgate : ∀ t, SameEpoch t (beaconGate sender (beaconOf p) t) := fun t => by
    rw [beaconGate_eq]
    exact .of_shift rfl
  unfold deliverBeacon
  split
  · have hentry : SameEpoch s (onEntry sender.toNat (fun _ => beaconEntry s.clock p) s) := .of_shift rfl
    exact ((hshift _).after hentry).before (hgate _)
  · exact (SameEpoch.refl s).forward

theorem sameEpoch_closeBeacon (before : State) : SameEpoch s (closeBeacon sender before s) := by
  unfold closeBeacon
  split
  · exact sameEpoch_finish before .recompute s
  · exact sameEpoch_finishLink before s

theorem sameEpoch_deliverHandoff (p : Vector Byte 4) : SameEpoch s (deliverHandoff sender p s) := by
  have hlead : ∀ h t, SameEpoch t (handoffLeadIn sender h t) := fun h t => by
    unfold handoffLeadIn
    split <;> exact .of_shift rfl
  unfold deliverHandoff
  split
  · rw [handoffCount_eq]
    exact (hlead _ _).after rfl
  · exact .refl s

theorem forward_deliverShift (p : Vector Byte 2) : EpochForward s (deliverShift p s) := by
  unfold deliverShift
  split
  · exact forward_adoptionTest _ _ s
  · exact (SameEpoch.refl s).forward

theorem sameEpoch_deliverAlarm (p : Vector Byte 4) : SameEpoch s (deliverAlarm sender p s) := by
  unfold deliverAlarm
  split <;> exact .of_shift rfl

theorem sameEpoch_placeEntry (kind : DirectiveKind) (k : StackId) (p : Vector Byte 9) :
    SameEpoch s (placeEntry kind k sender p s) := by
  unfold placeEntry
  split <;> exact .of_shift rfl

end Deliver

/-! ## The other blocks' operations -/

section Operations

variable (s : State)

theorem sameEpoch_removeCause (cause : SilentCause) : SameEpoch s (removeCause cause s) := by
  unfold removeCause
  dsimp only
  split <;> exact .of_shift rfl

theorem sameEpoch_resetLink : SameEpoch s (resetLink s) := by
  unfold resetLink
  split <;> exact .of_shift rfl

theorem sameEpoch_endAbort : SameEpoch s (endAbort s) := by
  unfold endAbort
  (repeat' split)
  · exact .of_shift rfl
  · exact .of_shift rfl
  · exact ((sameEpoch_resetLink (s.setLine (lineReset s.line))).trans (sameEpoch_finish s .none _)).after rfl

theorem sameEpoch_completeTransmission (x : Slot) : SameEpoch s (completeTransmission x s) := by
  have hlink : ∀ l, SameEpoch s (completeLink (s.setLine l)) := fun l => by
    unfold completeLink
    split <;> exact .of_shift rfl
  unfold completeTransmission
  dsimp only
  split
  · exact (hlink _).trans (sameEpoch_finish s .none _)
  · exact hlink _

theorem sameEpoch_endListen : SameEpoch s (endListen s) := by
  unfold endListen
  split <;> exact .of_shift rfl

theorem sameEpoch_scheduleBeacon : SameEpoch s (scheduleBeacon s) := by
  by_cases hlink : s.view.link = .silent
  · rw [scheduleBeacon_of_silent hlink]
    exact .of_shift rfl
  · rw [scheduleBeacon_of_open hlink]
    exact .of_shift rfl

theorem sameEpoch_balance : SameEpoch s (balance s) := by
  rw [balance_eq]
  exact .of_shift rfl

theorem sameEpoch_lowerLost (n : Nat) : SameEpoch s (lowerLost n s) := by
  unfold lowerLost
  split <;> exact .of_shift rfl

theorem sameEpoch_loseTimebase : SameEpoch s (loseTimebase s) := by
  unfold loseTimebase
  exact ((sameEpoch_addCause _ _).trans (sameEpoch_finish s .none _)).after rfl

theorem sameEpoch_recoverTimebase : SameEpoch s (recoverTimebase s) := by
  unfold recoverTimebase
  exact ((sameEpoch_removeCause _ _).trans (sameEpoch_finish s .none _)).after rfl

/-- A crossing counts in the shift's crossings alone (R64). -/
theorem sameEpoch_takeCrossing (dir : Travel) : SameEpoch s (takeCrossing dir s) := by
  have hshift : (takeCrossing dir s).shift = { s.shift with crossings := min 65535 (s.shift.crossings + 1) } := by
    simp [takeCrossing]
  exact ⟨by rw [hshift], by rw [hshift]⟩

theorem sameEpoch_endPassage : SameEpoch s (endPassage s) := by
  unfold endPassage
  dsimp only
  split
  · exact (sameEpoch_takeCrossing s _).trans (.of_shift rfl)
  · exact .of_shift rfl

theorem sameEpoch_beamChange (beam : Beam) : SameEpoch s (beamChange beam s) := by
  unfold beamChange
  dsimp only
  (repeat' split)
  · exact (sameEpoch_endPassage _).after rfl
  all_goals exact .of_shift rfl

theorem sameEpoch_sampleGas (g : Gas) (value : Option Nat) : SameEpoch s (sampleGas g value s) := by
  cases g <;> exact .of_shift rfl

theorem sameEpoch_onFan (n : Fin 2) (f : FanConfig → Fan → Fan) : SameEpoch s (onFan n f s) := by
  rw [onFan_eq n f rfl]
  exact .of_shift rfl

theorem sameEpoch_readTemperature (value : Option Int) : SameEpoch s (readTemperature value s) := by
  rw [readTemperature, stageReading_eq]
  exact .of_shift rfl

end Operations

/-! ## Every command -/

/-- A command that moves the epoch forward, or leaves it. -/
def Forwards (s : State) (a : Answer) : Prop := ∃ t, a = .next t ∧ EpochForward s t

section Commands

variable {s u : State} {c : Prop} [Decidable c]

theorem Forwards.of_forward (h : EpochForward s u) : Forwards s (.next u) := ⟨u, rfl, h⟩

theorem Forwards.guarded (h : EpochForward s u) : Forwards s (.next (if c then u else s)) := by
  refine .of_forward ?_
  split
  · exact h
  · exact (SameEpoch.refl s).forward

/-- A command whose change leaves the epoch. -/
theorem Forwards.change (h : SameEpoch s u) : Forwards s (.next (if c then u else s)) := .guarded h.forward

/-- A command whose change leaves the epoch, and which ends an event. -/
theorem Forwards.event {work : Work} (h : SameEpoch s u) : Forwards s (.next (if c then finish s work u else s)) :=
  .change (h.trans (sameEpoch_finish s work u))

/-- A command whose change leaves the epoch, and which forms the draws. -/
theorem Forwards.draws (h : SameEpoch s u) : Forwards s (.next (if c then measure u else s)) :=
  .change (h.trans (sameEpoch_measure u))

end Commands

section Exec

variable (s : State)

theorem forwards_transmissionComplete : Forwards s (exec .transmissionComplete s) := by
  refine .change ?_
  split
  · exact sameEpoch_completeTransmission s _
  · exact .refl s

theorem forwards_timebaseLost : Forwards s (exec .timebaseLost s) := by
  refine .of_forward (SameEpoch.forward ?_)
  (repeat' split)
  · exact .of_shift rfl
  · exact sameEpoch_loseTimebase s
  · exact .of_shift rfl

theorem forwards_timebaseRecovered : Forwards s (exec .timebaseRecovered s) := by
  refine .change ?_
  split
  · exact sameEpoch_recoverTimebase s
  · exact .of_shift rfl

/-- A press may originate; the SHIFT input's other changes leave the epoch (R45, R46). -/
theorem forwards_shiftInputChange (pressed : Bool) (event : InputEvent) :
    Forwards s (exec (.shiftInputChange pressed event) s) := by
  have hinput : ∀ f, SameEpoch s (onShiftInput f s) := fun _ => ⟨rfl, rfl⟩
  refine .guarded ?_
  cases event with
  | raw => exact (hinput _).forward
  | stable =>
    dsimp only
    split
    · exact ((forward_press _).after (hinput _)).before (sameEpoch_finish s .none _)
    · exact (hinput _).forward

/-- A matched RESTART keeps the epoch and the page (R56). -/
theorem forwards_restart (sender : Station) (p : Vector Byte 9) : Forwards s (exec (.restart sender p) s) := by
  refine .of_forward ?_
  (repeat' split)
  · exact forward_takeFrame _ _ _ s fun u => (SameEpoch.mk rfl rfl : SameEpoch u (beginRestart u)).forward
  · exact forward_passFrame _ _ _ s
  · exact (SameEpoch.refl s).forward

end Exec

/-- Outside the starts every command moves the epoch forward, or leaves it (R49 to R51, R56). -/
theorem exec_forwards {c : Instr} (hreset : c ≠ .powerOnReset) (hstart : ∀ r, c ≠ .startSequenceEnd r) (s : State) :
    Forwards s (exec c s) := by
  cases c
  case powerOnReset => exact absurd rfl hreset
  case startSequenceEnd r => exact absurd rfl (hstart r)
  case lineIdle | transmitAttemptStart | lostArbitration | bitError =>
    refine .change ?_
    (repeat' split) <;> exact .of_shift rfl
  case abortEnd => exact .change (sameEpoch_endAbort s)
  case transmissionComplete => exact forwards_transmissionComplete s
  case frameDiscarded bits => exact .change (.of_shift rfl)
  case startDelimiter => exact .change (.of_shift rfl)
  case beaconReceived st p =>
    exact .of_forward (forward_takeFrame _ _ _ s fun u =>
      (forward_deliverBeacon st u p).before (sameEpoch_closeBeacon st _ s))
  case handoffReceived st p => exact .of_forward (forward_event _ _ _ s fun u => (sameEpoch_deliverHandoff st u p).forward)
  case shiftReceived st p => exact .of_forward (forward_event _ _ _ s fun u => forward_deliverShift u p)
  case alarmReceived st p => exact .of_forward (forward_event _ _ _ s fun u => (sameEpoch_deliverAlarm st u p).forward)
  case replyReceived st p => exact .of_forward (forward_passFrame _ _ _ s)
  case lightSet st p | heatHold st p | heatSetpoint st p | heatBoost st p | ventPurge st p | ventStop st p =>
    exact .of_forward (forward_takeDirective _ _ _ s fun u => sameEpoch_placeEntry st u _ _ p)
  case release st p => exact .of_forward (forward_takeDirective _ _ _ s fun u => .of_shift rfl)
  case alarmAck st p => exact .of_forward (forward_takeDirective _ _ _ s fun u => .of_shift rfl)
  case restart st p => exact forwards_restart s st p
  case queryStatus | queryPeer | queryShift | queryDoor | queryOverrides | queryLoads =>
    exact .of_forward (forward_takeQuery _ _ _ s)
  case directiveDropped | queryDropped =>
    refine .of_forward ?_
    split
    · exact (SameEpoch.refl s).forward
    · exact forward_passFrame _ _ _ s
  case beaconScheduling => exact .event ((sameEpoch_scheduleBeacon s).trans (sameEpoch_balance _))
  case entryStale n => exact .event (.of_shift rfl)
  case entryLost n => exact .event ((sameEpoch_lowerLost _ _).after rfl)
  case listenTimerExpiry => exact .event (sameEpoch_endListen s)
  case isolationTimerExpiry => exact .event (.of_shift rfl)
  case timebaseLost => exact forwards_timebaseLost s
  case timebaseRecovered => exact forwards_timebaseRecovered s
  case shiftInputChange pressed event => exact forwards_shiftInputChange s pressed event
  case changeoverTimerExpiry => exact .event ⟨rfl, rfl⟩
  case lockoutTimerExpiry => exact .change ⟨rfl, rfl⟩
  case gateBeamChange beam => exact .event (sameEpoch_beamChange s beam)
  case manualAsserted event | manualReleased event | doorContactChange _ _ event | doorTrailerChange _ _ event =>
    refine .change ?_
    cases event with
    | raw => exact .of_shift rfl
    | stable => exact (sameEpoch_finish s .none _).after rfl
  case temperatureReading value => exact .event (sameEpoch_readTemperature s value)
  case gasSample g value => exact .event (sameEpoch_sampleGas s g value)
  case presenceReleased z => exact .change (.of_shift rfl)
  case openSecondsAdvance d => exact .change (.of_shift rfl)
  case levelRiseStep i => exact .draws (.of_shift rfl)
  case coastTimerExpiry n => exact .draws (sameEpoch_onFan s n _)
  case rampTimerExpiry n => exact .draws (sameEpoch_onFan s n _)
  case meterPulse => exact .draws ⟨rfl, rfl⟩
  all_goals exact .event (.of_shift rfl)

/-- Settles O60: every command but the two starts is one of `exec_forwards`. -/
theorem epochAdvances : Obligations.EpochAdvances := by
  intro c s t hexec hreset hstart
  obtain ⟨u, hu, hforward⟩ := exec_forwards hreset hstart s
  cases hu.symm.trans hexec
  exact hforward

end Sys2Proof.Machine
end

section
/-! SUPPORT. Presence inputs, the gate decoder, its faults and the HANDOFF of a neighbour; the statements about them (spec 04). -/

namespace Sys2Proof.Machine

/-! ## Presence -/

theorem zoneOf_of_getElem? {s : State} {z : Fin 4} {x : Zone} (h : s.traffic.zones[z.val]? = some x) : zoneOf z s = x := by
  simp [zoneOf, List.getD_eq_getElem?_getD, h]

/-- Settles O42: each command is the change of its zone, or the correction of R70, with the end of its event but for a release. -/
theorem presenceAndVacancy : Obligations.PresenceAndVacancy := by
  intro s hrun
  refine ⟨fun z x hx => ?_, fun v hv hdue => ?_⟩
  · have hzone := zoneOf_of_getElem? hx
    refine ⟨fun hclear => ?_, fun hset => ?_, fun r hr hdue => ?_⟩
    · exact event_of_due ⟨hrun, hzone ▸ hclear⟩ s .none (onZone z (fun _ => { asserted := true, releasedAt := none }) s) s
    · exact congrArg Host.Outcome.next (if_pos ⟨hrun, hzone ▸ hset⟩)
    · have hdue' : zoneDue z s = true := (zoneDue_iff s z).mpr ⟨hrun, x, hx, r, hr, hdue⟩
      refine ⟨_, congrArg Host.Outcome.next (if_pos hdue'), eventFrame_of_eq ?_⟩
      rw [onZone, updateAt_of_getElem? hx]
      rfl
  · exact event_of_due ((vacancyDue_iff s).mpr ⟨hrun, v, hv, hdue⟩) s .none (s.setTraffic (correctVacancy s.traffic)) s

/-! ## The gate decoder -/

/-- The held pair with one beam changed, beam by beam (R59). -/
theorem toggleBeam_eq (beam : Beam) (t : Traffic) : toggleBeam beam t = { t with
    beamA := if beam = .a then !t.beamA else t.beamA, beamB := if beam = .b then !t.beamB else t.beamB } := by
  cases beam <;> rfl

/-- Beam A goes up the cycle where the beams agree, and beam B where they differ (Figure 6). -/
theorem gateStep_toggleBeam (beam : Beam) (t : Traffic) :
    gateStep t.beamA t.beamB (toggleBeam beam t).beamA (toggleBeam beam t).beamB =
      if decide (beam = .a) = decide (t.beamA = t.beamB) then 1 else -1 := by
  rw [toggleBeam_eq]
  cases beam <;> cases t.beamA <;> cases t.beamB <;> rfl

/-- One step of the decoder in the terms of the distance from the start of the passage: it begins at 0, has its second stamp at 2,
and is not clean once it comes nearer again from 2 or 3 (R59, R60). -/
theorem decoderStep_eq {step : Int} (hstep : step = 1 ∨ step = -1) (now : Nat) (t : Traffic) :
    decoderStep now step t = { t with
      position := t.position + step
      first := if t.position = 0 then some now else t.first
      second := if t.position = 0 then none
        else if (t.position + step).natAbs = 2 ∧ t.second = none then some now else t.second
      clean := if t.position = 0 then true
        else if (t.position.natAbs = 2 ∧ (t.position + step).natAbs = 1) ∨
            (t.position.natAbs = 3 ∧ (t.position + step).natAbs = 2) then false
        else t.clean } := by
  have hbegins : (t.position = 0 ∧ (t.position + step = 1 ∨ t.position + step = -1)) ↔ t.position = 0 := by omega
  have hsecond : (t.position + step = 2 ∨ t.position + step = -2) ↔ (t.position + step).natAbs = 2 := by omega
  have hback : ((t.position = 2 ∧ t.position + step = 1) ∨ (t.position = -2 ∧ t.position + step = -1) ∨
      (t.position = 3 ∧ t.position + step = 2) ∨ (t.position = -3 ∧ t.position + step = -2)) ↔
      ((t.position.natAbs = 2 ∧ (t.position + step).natAbs = 1) ∨
        (t.position.natAbs = 3 ∧ (t.position + step).natAbs = 2)) := by omega
  simp only [decoderStep, hbegins, hsecond, hback]

/-- A beam at a gate in FAULT moves nothing (R63). -/
theorem beamChange_of_fault {s : State} (h : s.traffic.gate ≠ .ok) (beam : Beam) :
    beamChange beam s = s.setTraffic (toggleBeam beam s.traffic) := by
  cases beam <;> exact if_neg h

/-- A beam in WAITING may begin TRACKING (R59). -/
theorem beamChange_of_waiting {s : State} (h : s.traffic.gate = .ok) (hwait : s.traffic.tracking = false) (beam : Beam) :
    beamChange beam s = s.setTraffic (beginTracking (toggleBeam beam s.traffic)) := by
  cases beam <;> simp [beamChange, toggleBeam, h, hwait]

/-- A beam in TRACKING takes the decoder one step, and ends the passage where it clears the pair (R59). -/
theorem beamChange_of_tracking {s : State} (h : s.traffic.gate = .ok) (htrack : s.traffic.tracking = true) (beam : Beam) :
    beamChange beam s =
      let stepped := s.setTraffic (decoderStep s.clock
        (if decide (beam = .a) = decide (s.traffic.beamA = s.traffic.beamB) then 1 else -1) (toggleBeam beam s.traffic))
      if (toggleBeam beam s.traffic).beamA = false ∧ (toggleBeam beam s.traffic).beamB = false then endPassage stepped
      else stepped := by
  have hgate : (toggleBeam beam s.traffic).gate = .ok := by rw [toggleBeam_eq]; exact h
  have htracking : (toggleBeam beam s.traffic).tracking = true := by rw [toggleBeam_eq]; exact htrack
  rw [← gateStep_toggleBeam]
  exact (if_pos hgate).trans (if_pos htracking)

/-- A beam at a configured gate is decoded, and its event ends (R58, R59). -/
theorem exec_gateBeamChange {s : State} (hrun : s.start.running = true) (hgate : s.traffic.gate ≠ .none) (beam : Beam) :
    exec (.gateBeamChange beam) s = .next (finish s .none (beamChange beam s)) :=
  congrArg Host.Outcome.next (if_pos (by simp [gateSampled, hrun, hgate]))

theorem beginTracking_of_open {t : Traffic} (h : t.beamA = true ∨ t.beamB = true) : beginTracking t = t := by
  refine if_neg fun ⟨_, _, ha, hb⟩ => ?_
  simp [ha, hb] at h

/-- Settles O39: the step of the decoder is that of `decoderStep_eq`; WAITING and FAULT have none. -/
theorem gateBeamStep : Obligations.GateBeamStep := by
  intro s beam hrun hgate g a b p held
  have hheld : toggleBeam beam s.traffic = held := toggleBeam_eq beam s.traffic
  refine ⟨_, exec_gateBeamChange hrun hgate beam, fun hok htrack hopen => eventFrame_of_eq ?_,
    fun hok hwait hopen => eventFrame_of_eq ?_, fun hok hwait ha hb => eventFrame_of_eq ?_,
    fun hfault => eventFrame_of_eq ?_⟩
  · have hpair : ¬(held.beamA = false ∧ held.beamB = false) := fun ⟨ha, hb⟩ => by
      have ha' : a = false := ha
      have hb' : b = false := hb
      simp [ha', hb'] at hopen
    rw [beamChange_of_tracking hok htrack, hheld, decoderStep_eq (by split <;> simp)]
    exact (if_neg hpair).symm
  · rw [beamChange_of_waiting hok hwait, hheld, beginTracking_of_open (t := held) hopen]
    rfl
  · have hbegin : beginTracking held = { clearPassage held with tracking := true } := if_pos ⟨hok, hwait, ha, hb⟩
    rw [beamChange_of_waiting hok hwait, hheld, hbegin]
    rfl
  · have hnot : s.traffic.gate ≠ .ok := fun hok => by
      cases hok.symm.trans hfault
    rw [beamChange_of_fault hnot, hheld]
    rfl

/-! ## The end of a passage -/

/-- A change of the count by one: within 0..15 it restarts the vacancy timer, beyond it sets UNCERTAIN (R68, R70). -/
theorem changeCount_eq {d : Int} (hd : d = 1 ∨ d = -1) (t : Traffic) : changeCount d t = { t with
    count := if 0 ≤ (t.count : Int) + d ∧ (t.count : Int) + d ≤ 15 then ((t.count : Int) + d).toNat else t.count
    vacancySince := if 0 ≤ (t.count : Int) + d ∧ (t.count : Int) + d ≤ 15 then none else t.vacancySince
    uncertain := t.uncertain || decide ¬(0 ≤ (t.count : Int) + d ∧ (t.count : Int) + d ≤ 15) } := by
  by_cases hrange : 0 ≤ (t.count : Int) + d ∧ (t.count : Int) + d ≤ 15
  · have hout : ¬((t.count : Int) + d < 0 ∨ 15 < (t.count : Int) + d) := by omega
    have hmoved : ((t.count : Int) + d).toNat ≠ t.count := by omega
    simp only [changeCount, if_neg hout, if_neg hmoved, decide_not, hrange]
    simp
  · have hout : (t.count : Int) + d < 0 ∨ 15 < (t.count : Int) + d := by omega
    simp only [changeCount, if_pos hout, decide_not, hrange]
    simp

theorem offer_line {s u : State} (hview : u.view = s.view) (hline : u.line = s.line) (b : Bulletin) :
    (offer b u).line = (offer b s).line := by
  by_cases hlink : s.view.link = .silent
  · rw [offer_of_silent hlink, offer_of_silent (hview ▸ hlink), hline]
  · rw [offer_of_open hlink, offer_of_open (hview ▸ hlink), hline]
    rfl

/-- A crossing advances both counts, offers its HANDOFF and changes the occupancy count (R64). -/
theorem takeCrossing_eq (dir : Travel) (s : State) : takeCrossing dir s = { s with
    traffic := changeCount (crossingChange dir) { s.traffic with gateCount := s.traffic.gateCount + 1 }
    shift := { s.shift with crossings := min 65535 (s.shift.crossings + 1) }
    line := (offer (.handoff (handoffFor s.start.config.gate.spacing dir (s.traffic.gateCount + 1) s.traffic)) s).line } := by
  rw [takeCrossing, ← offer_line (s := s) (u := (s.setTraffic { s.traffic with gateCount := s.traffic.gateCount + 1 }).setShift
    { s.shift with crossings := min 65535 (s.shift.crossings + 1) }) rfl rfl, offer_queue]
  rfl

/-- The fields of a crossing's HANDOFF: a clean passage with both stamps has a transit time, and from it its speed class
(R60, R61). -/
theorem handoffFor_eq (spacing : Nat) (dir : Travel) (count : Byte) (t : Traffic) : handoffFor spacing dir count t =
    let transit : Option Nat := match t.clean, t.first, t.second with
      | true, some x, some y => some (min 65535 (y - x))
      | _, _, _ => none
    let speed : SpeedClass := match transit with
      | some n => if 5 * n < 2 * spacing then .fast else if 2 * spacing < n then .slow else .normal
      | none => .unknown
    { direction := dir, speed := speed, count := count, transit := transit.getD 0 } := by
  obtain ⟨_, _, _, _, _, first, second, clean, _⟩ := t
  cases clean <;> cases first <;> cases second <;> rfl

/-- The decoder with the held pair clear at position `p`, where a passage ends. -/
def overAt (p : Int) (t : Traffic) : Traffic := { t with beamA := false, beamB := false, position := p }

theorem endPassage_of_back_out {s : State} (h : s.traffic.position = 0) :
    endPassage s = s.setTraffic (clearPassage s.traffic) := by
  simp [endPassage, h, crossingOf]

/-- The end of a passage at +4 or −4 is the crossing, and the decoder cleared (R59, R64). -/
theorem endPassage_of_crossing {s : State} {dir : Travel} (h : crossingOf s.traffic.position = some dir) : endPassage s =
    (takeCrossing dir s).setTraffic (clearPassage
      (changeCount (crossingChange dir) { s.traffic with gateCount := s.traffic.gateCount + 1 })) := by
  simp only [endPassage, h, takeCrossing_traffic]

/-- The last step of a passage moves the position alone (R60). -/
theorem decoderStep_of_last {step : Int} (hstep : step = 1 ∨ step = -1) {t : Traffic} (hbegun : t.position ≠ 0)
    (hlast : (t.position + step).natAbs = 4 ∨ t.position + step = 0) (now : Nat) :
    decoderStep now step t = { t with position := t.position + step } := by
  have hsecond : ¬((t.position + step).natAbs = 2 ∧ t.second = none) := by omega
  have hback : ¬((t.position.natAbs = 2 ∧ (t.position + step).natAbs = 1) ∨
      (t.position.natAbs = 3 ∧ (t.position + step).natAbs = 2)) := by omega
  simp only [decoderStep_eq hstep, if_neg hbegun, if_neg hsecond, if_neg hback]

/-- The beam that alone was interrupted clears the pair, and ends the passage: beam B one step up, beam A one step down (R59). -/
theorem beamChange_of_last {s : State} (h : s.traffic.gate = .ok) (htrack : s.traffic.tracking = true) {beam : Beam}
    (ha : s.traffic.beamA = decide (beam = .a)) (hb : s.traffic.beamB = decide (beam = .b)) {p : Int}
    (hp : s.traffic.position + (if beam = .b then 1 else -1) = p) (hbegun : s.traffic.position ≠ 0)
    (hlast : p.natAbs = 4 ∨ p = 0) : beamChange beam s = endPassage (s.setTraffic (overAt p s.traffic)) := by
  have hstep : (if decide (beam = .a) = decide (s.traffic.beamA = s.traffic.beamB) then (1 : Int) else -1) =
      if beam = .b then 1 else -1 := by
    rw [ha, hb]
    cases beam <;> rfl
  have hunit : (if beam = .b then (1 : Int) else -1) = 1 ∨ (if beam = .b then (1 : Int) else -1) = -1 := by
    split <;> simp
  have hclear : toggleBeam beam s.traffic = overAt s.traffic.position s.traffic := by
    rw [toggleBeam_eq, overAt, ha, hb]
    cases beam <;> rfl
  have hmoved := decoderStep_of_last hunit (t := overAt s.traffic.position s.traffic) hbegun (hp.symm ▸ hlast) s.clock
  rw [beamChange_of_tracking h htrack, hstep, hclear, hmoved, ← hp]
  exact if_pos ⟨rfl, rfl⟩

/-- A crossing under way to its count, its HANDOFF and the change of the occupancy count (R59, R64, R65, R68). -/
theorem endPassage_overAt {p : Int} {dir : Travel} (h : crossingOf p = some dir) (s : State) :
    endPassage (s.setTraffic (overAt p s.traffic)) = { s with
      traffic := clearPassage (changeCount (crossingChange dir)
        { overAt p s.traffic with gateCount := s.traffic.gateCount + 1 })
      shift := { s.shift with crossings := min 65535 (s.shift.crossings + 1) }
      line := (offer (.handoff (handoffFor s.start.config.gate.spacing dir (s.traffic.gateCount + 1) s.traffic)) s).line } := by
  rw [endPassage_of_crossing h, takeCrossing_eq, offer_line (s := s) (u := s.setTraffic (overAt p s.traffic)) rfl rfl]
  rfl

/-- Settles O40: the beam clears the pair (`beamChange_of_last`), and the position reached says how the passage ends. -/
theorem gateCrossing : Obligations.GateCrossing := by
  intro s beam hrun hok htrack g ended crossed
  have hbackOut : endPassage (s.setTraffic (overAt 0 g)) = { s with traffic := ended } := by
    rw [endPassage_of_back_out rfl]
    rfl
  have hcrossed {p : Int} {dir : Travel} {change : Int} (hdir : crossingOf p = some dir) (hchange : crossingChange dir = change) :
      endPassage (s.setTraffic (overAt p g)) = crossed dir change := by
    have hunit : change = 1 ∨ change = -1 := by
      subst hchange
      cases dir <;> simp [crossingChange]
    rw [endPassage_overAt hdir, hchange, changeCount_eq hunit, handoffFor_eq]
    rfl
  have hends (p : Int) {u : State} (hu : endPassage (s.setTraffic (overAt p g)) = u) (ha : g.beamA = decide (beam = .a))
      (hb : g.beamB = decide (beam = .b)) (hp : g.position + (if beam = .b then 1 else -1) = p) (hbegun : g.position ≠ 0)
      (hlast : p.natAbs = 4 ∨ p = 0) : EventFrame s u (finish s .none (beamChange beam s)) := by
    rw [beamChange_of_last hok htrack ha hb hp hbegun hlast]
    exact eventFrame_of_eq hu.symm
  refine ⟨_, exec_gateBeamChange hrun (by simp [hok]) beam, fun hbeam ha hb hpos => hends 4 (hcrossed rfl rfl) ?_ ?_ ?_ ?_ ?_,
    fun hbeam ha hb hpos => hends (-4) (hcrossed rfl rfl) ?_ ?_ ?_ ?_ ?_, fun hbeam ha hb hpos => hends 0 hbackOut ?_ ?_ ?_ ?_ ?_,
    fun hbeam ha hb hpos => hends 0 hbackOut ?_ ?_ ?_ ?_ ?_⟩
  all_goals simp [hbeam, ha, hb, hpos]

/-! ## Gate faults -/

/-- A gate that is OK and has lost its passage tracks the next one exactly where the held pair is clear (R59, R62). -/
theorem beginTracking_clearPassage {t : Traffic} (hgate : t.gate = .ok) (hwait : t.tracking = false) :
    beginTracking (clearPassage t) =
      { clearPassage t with tracking := decide (t.beamA = false ∧ t.beamB = false) } := by
  by_cases hpair : t.beamA = false ∧ t.beamB = false
  · rw [decide_eq_true hpair]
    exact if_pos ⟨hgate, hwait, hpair⟩
  · rw [decide_eq_false hpair, ← hwait]
    exact if_neg fun ⟨_, _, h⟩ => hpair h

/-- GATE_FAULT is active exactly while the gate is in FAULT (R63, Table 37). -/
theorem EventFrame.gate_fault {before s t : State} (h : EventFrame before s t) :
    conditionSet t.alarms.active 6 = decide (s.traffic.gate = .fault) := by
  have hgate : t.traffic.gate = s.traffic.gate := by rw [h.traffic]
  rw [h.condition (by decide), ← hgate]
  rfl

/-- The earlier invalid transitions that count with one at `now` (R62). -/
def recentInvalid (now : Nat) (t : Traffic) : List Nat := t.invalid.filter fun e => decide (now - e ≤ 60000)

/-- Fewer than three invalid transitions within 60 s: the passage is lost, and the gate stays OK (R62). -/
theorem invalidWhileOk_of_few {now : Nat} {t : Traffic} (hgate : t.gate = .ok) (hfew : (recentInvalid now t).length < 2) :
    invalidWhileOk now t = { t with
      tracking := decide (t.beamA = false ∧ t.beamB = false), position := 0, first := none, second := none
      invalid := recentInvalid now t ++ [now] } := by
  have hlost : invalidWhileOk now t =
      beginTracking (clearPassage { t with tracking := false, invalid := recentInvalid now t ++ [now] }) :=
    if_neg (Nat.not_le.mpr hfew)
  exact hlost.trans (beginTracking_clearPassage hgate rfl)

/-- The third invalid transition within 60 s: the gate goes into FAULT (R62, R63). -/
theorem invalidWhileOk_of_third {now : Nat} {t : Traffic} (hthird : 2 ≤ (recentInvalid now t).length) :
    invalidWhileOk now t = { t with
      gate := .fault, uncertain := true, quietSince := some now, tracking := false, position := 0, first := none
      second := none, invalid := [] } := if_pos hthird

/-- An invalid transition at a configured gate ends its event (R58, R62). -/
theorem exec_invalidTransition {s : State} (hrun : s.start.running = true) (hgate : s.traffic.gate ≠ .none) :
    exec .invalidTransition s = .next (finish s .none (s.setTraffic (invalidTransition s.clock s.traffic))) :=
  congrArg Host.Outcome.next (if_pos (by simp [gateSampled, hrun, hgate]))

/-- Settles O41: the transition while OK by its two cases, and the end of the FAULT by `beginTracking_clearPassage`. -/
theorem gateFaults : Obligations.GateFaults := by
  intro s hrun g flipped recent
  refine ⟨fun hok => ⟨_, exec_invalidTransition hrun (hok.trans_ne (by simp)), ?_⟩,
    fun hfault => ⟨_, exec_invalidTransition hrun (hfault.trans_ne (by simp)), eventFrame_of_eq ?_⟩, fun q hfault hquiet hdue => ?_⟩
  · have hchange : invalidTransition s.clock s.traffic = invalidWhileOk s.clock flipped :=
      if_neg (hok.trans_ne (by simp))
    rw [hchange]
    refine ⟨fun hfew => eventFrame_of_eq ?_, fun hthird => ?_⟩
    · rw [invalidWhileOk_of_few (t := flipped) hok hfew]
      simp [flipped, State.setTraffic, recentInvalid, recent, g]
    · rw [invalidWhileOk_of_third (t := flipped) hthird]
      have hend := finish_frame s .none (s.setTraffic { flipped with
        gate := .fault, uncertain := true, quietSince := some s.clock, tracking := false, position := 0, first := none
        second := none, invalid := [] })
      exact ⟨hend.gate_fault, hend⟩
  · have hchange : invalidTransition s.clock s.traffic = { flipped with quietSince := some s.clock } := if_pos hfault
    rw [hchange]
    rfl
  · have hclear : clearGateFault s.traffic = { g with
        gate := .ok, quietSince := none, invalid := [], position := 0, first := none, second := none
        tracking := decide (g.beamA = false ∧ g.beamB = false) } :=
      beginTracking_clearPassage (t := { g with gate := .ok, quietSince := none, tracking := false, invalid := [] }) rfl rfl
    have hdue' : gateClearDue s = true := (gateClearDue_iff s).mpr ⟨hrun, hfault, q, hquiet, hdue⟩
    have hend := finish_frame s .none (s.setTraffic (clearGateFault s.traffic))
    rw [hclear] at hend
    refine ⟨_, congrArg Host.Outcome.next (if_pos hdue'), ?_⟩
    rw [hclear]
    exact ⟨hend.gate_fault, hend⟩

/-! ## The HANDOFF of a neighbour -/

/-- The table of R73: from next to the bay every crossing but a slow one lights it, from two bays off a fast one alone. -/
theorem leadInReach_iff (n : Nat) (ahead : Int) : leadInReach (speedOfCode n) ahead = true ↔
    (ahead = 1 ∧ n ≠ 2) ∨ (ahead = 2 ∧ n = 0) := by
  unfold speedOfCode
  split <;> simp_all [leadInReach]

/-- A HANDOFF in one of the two directions, as it is received (Table 46). -/
def handoffFields (p : Vector Byte 4) : Handoff :=
  { direction := if p[0].toNat / 16 = 0 then .up else .down, speed := speedOfCode (p[0].toNat % 16), count := p[1]
    transit := word16 p[2] p[3] }

theorem handoffOf_of_direction {p : Vector Byte 4} (h : p[0].toNat / 16 < 2) : handoffOf p = some (handoffFields p) := by
  unfold handoffFields
  by_cases hup : p[0].toNat / 16 = 0
  · rw [if_pos hup]
    exact if_pos hup
  · have hdown : p[0].toNat / 16 = 1 := by omega
    rw [if_neg hup]
    exact (if_neg hup).trans (if_pos hdown)

theorem handoffOf_of_no_direction {p : Vector Byte 4} (h : 2 ≤ p[0].toNat / 16) : handoffOf p = none := by
  have hup : p[0].toNat / 16 ≠ 0 := by omega
  have hdown : p[0].toNat / 16 ≠ 1 := by omega
  exact (if_neg hup).trans (if_neg hdown)

/-- The lower neighbour's HANDOFF changes the count by one and is checked for a gap (R66, R68). -/
theorem lowerHandoff_eq {h : Handoff} {d : Int} (hd : (if h.direction = .up then 1 else -1) = d) (t : Traffic) :
    lowerHandoff h t = { changeCount d t with
      uncertain := (changeCount d t).uncertain || decide (t.lowerSeen ≠ none ∧ t.lowerSeen ≠ some (h.count - 1))
      lowerSeen := some h.count } := by
  obtain ⟨direction, _⟩ := h
  subst hd
  cases direction <;> rfl

/-- The lead-in of a HANDOFF reaches the lighting unit alone (R73). -/
theorem handoffLeadIn_eq (sender : Station) (h : Handoff) (s : State) : handoffLeadIn sender h s = s.setLighting
    (if isWorking s && leadInReach h.speed (distanceAhead s.start.strapped sender.toNat h.direction) then
      leadInTrigger s.clock s.start.config.lighting.leadIn s.lighting else s.lighting) := by
  unfold handoffLeadIn
  split <;> rfl

/-- What a HANDOFF in one of the two directions does: the count for the lower neighbour's, then the lead-in (R66). -/
theorem deliverHandoff_eq (sender : Station) {p : Vector Byte 4} {h : Handoff} (hp : handoffOf p = some h) (s : State) :
    deliverHandoff sender p s = { s with
      traffic := if sender.toNat + 1 = s.start.strapped then lowerHandoff h s.traffic else s.traffic
      lighting := if isWorking s && leadInReach h.speed (distanceAhead s.start.strapped sender.toNat h.direction) then
        leadInTrigger s.clock s.start.config.lighting.leadIn s.lighting else s.lighting } := by
  simp only [deliverHandoff, hp, handoffCount_eq, handoffLeadIn_eq, isLower, decide_eq_true_eq]
  rfl

/-- Settles O18: a HANDOFF in one of the two directions is that of `deliverHandoff_eq`, in the terms of its bytes; any other is
passed over. -/
theorem handoffReceived : Obligations.HandoffReceived := by
  intro s sender p hrun hrecv hother u code up next gap ahead reached
  have hexec : exec (.handoffReceived sender p) s = .next (finish s .none (deliverHandoff sender p u)) :=
    congrArg Host.Outcome.next (takeFrame_of_other hrun hrecv hother)
  obtain ⟨l, v, a, hu⟩ : ∃ l v a, u = { s with line := l, view := v, alarms := a } := exists_heard_eq _ _ _ _
  refine ⟨_, hexec, fun h => eventFrame_of_eq ?_, fun h => eventFrame_of_eq ?_⟩
  · simp only [deliverHandoff, handoffOf_of_no_direction h]
  · have hd : (if (handoffFields p).direction = .up then (1 : Int) else -1) = if up then 1 else -1 := by
      by_cases hup : code / 16 = 0 <;> simp [handoffFields, code, up, hup]
    have hunit : (if up then (1 : Int) else -1) = 1 ∨ (if up then (1 : Int) else -1) = -1 := by
      split <;> simp
    have hahead : distanceAhead s.start.strapped sender.toNat (handoffFields p).direction = ahead := by
      by_cases hup : code / 16 = 0 <;> simp [distanceAhead, handoffFields, code, ahead, up, hup]
    have hreach : leadInReach (handoffFields p).speed
        (distanceAhead s.start.strapped sender.toNat (handoffFields p).direction) = true ↔ reached := by
      rw [hahead]
      exact leadInReach_iff _ _
    rw [deliverHandoff_eq sender (handoffOf_of_direction h)]
    clear_value u
    subst hu
    congr 1
    · rw [lowerHandoff_eq hd, changeCount_eq hunit]
      rfl
    · have hwork : isWorking { s with line := l, view := v, alarms := a } = isWorking s := rfl
      simp only [hwork, Bool.and_eq_true, hreach, leadInTrigger]
      split_ifs <;> simp_all

end Sys2Proof.Machine
end

section
/-! SUPPORT. The ranges of a configuration image's values, section by section (Table 52), and of the built-in defaults. -/

namespace Sys2Proof.Machine

/-! ## Clamped and rounded values -/

theorem clampNat_bounds {lo hi : Nat} (h : lo ≤ hi) (n : Nat) : lo ≤ clampNat lo hi n ∧ clampNat lo hi n ≤ hi := by
  unfold clampNat
  omega

/-- A value rounded down to a step stays on it between bounds that lie on it. -/
theorem clampNat_roundDown_mod {lo hi step : Nat} (hlo : lo % step = 0) (hhi : hi % step = 0) (n : Nat) :
    clampNat lo hi (roundDown step n) % step = 0 := by
  have hround : roundDown step n % step = 0 := Nat.mul_mod_left _ _
  unfold clampNat
  rcases max_choice lo (min hi (roundDown step n)) with h | h
  · rw [h, hlo]
  · rcases min_choice hi (roundDown step n) with k | k
    · rw [h, k, hhi]
    · rw [h, k, hround]

theorem forall_mem_pair {α : Type} {p : α → Prop} {a b : α} : (∀ x ∈ [a, b], p x) ↔ p a ∧ p b := by simp

theorem word16_le (hi lo : Byte) : word16 hi lo ≤ 65535 := by
  have := (half hi lo).isLt
  unfold word16
  omega

/-! ## The sections -/

section Sections

variable (image : List Byte)

theorem headerOf_cap : 100 ≤ (headerOf image).cap ∧ (headerOf image).cap ≤ 65535 := by
  have hbound := word16_le (imageByte image 6) (imageByte image 7)
  exact ⟨le_max_left _ _, max_le (by decide) hbound⟩

theorem levelsAt_le (i : Nat) : ∀ l ∈ levelsAt image i, l ≤ 100 :=
  List.forall_mem_map.mpr fun _ _ => min_le_left _ _

/-- A page's levels, setpoints, ventilation speed and changeover duration (R43, Table 10). -/
theorem pageOf_ranges (n : Nat) : let p := pageOf image n
    p.work.length = 4 ∧ p.standby.length = 4 ∧ (∀ l ∈ p.work, l ≤ 100) ∧ (∀ l ∈ p.standby, l ≤ 100) ∧
      p.changeoverLevel ≤ 100 ∧ -400 ≤ p.occupied ∧ p.occupied ≤ 600 ∧ -400 ≤ p.unoccupied ∧ p.unoccupied ≤ 600 ∧
      p.minVent ≤ 100 ∧ p.minVent % 5 = 0 ∧ p.changeover ≤ 1800 := by
  have hspan : (-400 : Int) ≤ 600 := by decide
  have hoccupied := clampInt_bounds hspan (imageSigned image (8 + 18 * n + 10))
  have hunoccupied := clampInt_bounds hspan (imageSigned image (8 + 18 * n + 12))
  have hvent : min 100 (roundDown 5 (image8 image (8 + 18 * n + 14))) % 5 = 0 := by
    unfold roundDown
    omega
  exact ⟨by simp [pageOf, levelsAt], by simp [pageOf, levelsAt], levelsAt_le image _, levelsAt_le image _, min_le_left _ _,
    hoccupied.1, hoccupied.2, hunoccupied.1, hunoccupied.2, min_le_left _ _, hvent, min_le_left _ _⟩

theorem doorsOf_ranges (c : Config) (hc : c.doors = doorsOf image) :
    c.doors.docks.length = c.doorCount ∧ c.doorCount ≤ 8 ∧ c.doors.holdLimit ≤ 3600 ∧ c.doors.recovery ≤ 600 ∧
      (∀ w ∈ c.doors.curtains, w ≤ 500) ∧ ∀ w ∈ c.doors.docks, w ≤ 200 := by
  rw [Config.doorCount, hc]
  exact ⟨by simp [doorsOf], by simp [doorsOf], min_le_left _ _, min_le_left _ _,
    List.forall_mem_map.mpr fun _ _ => min_le_left _ _, List.forall_mem_map.mpr fun _ _ => min_le_left _ _⟩

theorem hysteresisOf_mem (n : Nat) : hysteresisOf n ∈ [0, 5, 10, 20] := by
  unfold hysteresisOf
  split
  · rename_i h
    rcases h with rfl | rfl | rfl <;> decide
  · decide

/-- The limits as placed lie in their range, the critical low at or below high − h (R105). -/
theorem placeLimits_ranges {low high : Int} {h : Nat} (hlow : -400 ≤ low) (hhigh : high ≤ 600) (hh : h ≤ 20) :
    -400 ≤ (placeLimits low high h).1 ∧ (placeLimits low high h).2 ≤ 600 ∧
      (placeLimits low high h).1 + h ≤ (placeLimits low high h).2 := by
  unfold placeLimits
  split_ifs <;> dsimp only <;> omega

theorem heatOf_limits : -400 ≤ (heatOf image).criticalLow ∧ (heatOf image).high ≤ 600 ∧
    (heatOf image).criticalLow + (heatOf image).hysteresis ≤ (heatOf image).high ∧
    (heatOf image).hysteresis ∈ [0, 5, 10, 20] := by
  have hspan : (-400 : Int) ≤ 600 := by decide
  have hmem := hysteresisOf_mem (image8 image 184)
  have hle : hysteresisOf (image8 image 184) ≤ 20 := by
    simp only [List.mem_cons, List.not_mem_nil, or_false] at hmem
    omega
  obtain ⟨hlow, hhigh, hplaced⟩ := placeLimits_ranges (clampInt_bounds hspan (imageSigned image 180)).1
    (clampInt_bounds hspan (imageSigned image 182)).2 hle
  exact ⟨hlow, hhigh, hplaced, hmem⟩

theorem heatOf_stages : (heatOf image).stages.length ≤ 4 ∧ (heatOf image).boostDelta ≤ 50 ∧ 5 ≤ (heatOf image).spacing ∧
    (heatOf image).spacing ≤ 50 ∧ ∀ k ∈ (heatOf image).stages,
      1 ≤ k.rated ∧ k.rated ≤ 1000 ∧ 30 ≤ k.minOn ∧ k.minOn ≤ 600 ∧ 30 ≤ k.minOff ∧ k.minOff ≤ 900 := by
  have hspacing := clampNat_bounds (by decide : 5 ≤ 50) (image8 image 186)
  refine ⟨by simp [heatOf], min_le_left _ _, hspacing.1, hspacing.2, List.forall_mem_map.mpr fun k _ => ?_⟩
  have hrated := clampNat_bounds (by decide : 1 ≤ 1000) (image16 image (122 + 6 * k))
  have hon := clampNat_bounds (by decide : 30 ≤ 600) (image16 image (124 + 6 * k))
  have hoff := clampNat_bounds (by decide : 30 ≤ 900) (image16 image (126 + 6 * k))
  exact ⟨hrated.1, hrated.2, hon.1, hon.2, hoff.1, hoff.2⟩

/-- The thresholds of a gas channel stand in order (Table 27). -/
theorem gasOf_ranges {fullScale : Nat} (hfull : 1 ≤ fullScale) (action critical band : Nat) :
    let g := gasOf fullScale action critical band
    1 ≤ g.action ∧ g.action ≤ g.critical ∧ g.critical ≤ g.fullScale ∧ g.band < g.action := by
  obtain ⟨haction, hscale⟩ := clampNat_bounds hfull action
  obtain ⟨hcritical, hcritical'⟩ := clampNat_bounds hscale critical
  have hband : min (clampNat 1 fullScale action - 1) band < clampNat 1 fullScale action := by omega
  exact ⟨haction, hcritical, hcritical', hband⟩

theorem responseSpeed_ranges (n : Nat) : 5 ≤ responseSpeed n ∧ responseSpeed n ≤ 100 ∧ responseSpeed n % 5 = 0 :=
  ⟨(clampNat_bounds (by decide) _).1, (clampNat_bounds (by decide) _).2, clampNat_roundDown_mod rfl rfl n⟩

theorem fanOf_ranges (i : Nat) : (fanOf image i).rated ≤ 500 ∧ (fanOf image i).flow ≤ 500 ∧ 5 ≤ (fanOf image i).coast ∧
    (fanOf image i).coast ≤ 120 ∧ 100 ≤ (fanOf image i).ramp ∧ (fanOf image i).ramp ≤ 2000 := by
  have hcoast := clampNat_bounds (by decide : 5 ≤ 120) (image8 image (i + 4))
  have hramp := clampNat_bounds (by decide : 100 ≤ 2000) (image16 image (i + 5))
  exact ⟨min_le_left _ _, min_le_left _ _, hcoast.1, hcoast.2, hramp.1, hramp.2⟩

end Sections

/-! ## Every configuration a start can end with -/

theorem configOf_ok (image : List Byte) : ConfigOk (configOf image) where
  nCfg := clampNat_bounds (by decide) _
  interval := ⟨(clampNat_bounds (by decide) _).1, (clampNat_bounds (by decide) _).2, clampNat_roundDown_mod rfl rfl _⟩
  cap := headerOf_cap image
  pageCount := by simp [configOf]
  pages := List.forall_mem_map.mpr fun n _ => pageOf_ranges image n
  channels := ⟨by simp [configOf, lightingOf], List.forall_mem_map.mpr fun _ _ => min_le_left _ _⟩
  lighting := by
    obtain ⟨hlead, hlead'⟩ := clampNat_bounds (by decide : 5 ≤ 120) (image8 image 88)
    obtain ⟨hhold, hhold'⟩ := clampNat_bounds (by decide : 10 ≤ 600) (image16 image 89)
    obtain ⟨hfade, hfade'⟩ := clampNat_bounds (by decide : 1 ≤ 100) (image8 image 91)
    exact ⟨hlead, hlead', hhold, hhold', hfade, hfade'⟩
  doors := doorsOf_ranges image _ rfl
  limits := heatOf_limits image
  stages := heatOf_stages image
  gas := forall_mem_pair.mpr ⟨gasOf_ranges (by decide) _ _ _, gasOf_ranges (by decide) _ _ _⟩
  windows := by
    obtain ⟨hset, hset'⟩ := clampNat_bounds (by decide : 1 ≤ 16) (image8 image 176)
    obtain ⟨hclear, hclear'⟩ := clampNat_bounds (by decide : 1 ≤ 16) (image8 image 177)
    exact ⟨hset, hset', hclear, hclear'⟩
  speeds := forall_mem_pair.mpr ⟨responseSpeed_ranges _, responseSpeed_ranges _⟩
  fans := forall_mem_pair.mpr ⟨fanOf_ranges image _, fanOf_ranges image _⟩
  balancing := by
    obtain ⟨hstep, hstep'⟩ := clampNat_bounds (by decide : 5 ≤ 50) (image8 image 190)
    exact ⟨min_le_left _ _, min_le_left _ _, hstep, hstep'⟩
  gate := by
    obtain ⟨hspace, hspace'⟩ := clampNat_bounds (by decide : 200 ≤ 2000) (image16 image 161)
    obtain ⟨hhold, hhold'⟩ := clampNat_bounds (by decide : 5 ≤ 300) (image16 image 163)
    obtain ⟨hvacant, hvacant'⟩ := clampNat_bounds (by decide : 30 ≤ 1800) (image16 image 165)
    exact ⟨hspace, hspace', hhold, hhold', hvacant, hvacant'⟩
  meter := by
    obtain ⟨hweight, hweight'⟩ := clampNat_bounds (by decide : 1 ≤ 1000) (image16 image 191)
    obtain ⟨hcreep, hcreep'⟩ := clampNat_bounds (by decide : 10 ≤ 600) (image16 image 193)
    exact ⟨hweight, hweight', hcreep, hcreep', min_le_left _ _⟩

theorem builtIn_ok : ConfigOk Config.builtIn := by
  constructor <;> decide

/-- A start ends with the image's configuration or with the defaults (R174, R176). -/
theorem configFor_ok (image : List Byte) : ConfigOk (configFor image) := by
  unfold configFor
  split
  · exact configOf_ok image
  · exact builtIn_ok

end Sys2Proof.Machine
end

section
/-! SUPPORT. The override stacks' limits, the latched flags, the temperature guards and boost, each kept by its own block's
operations (R101, R102, R105, R107, R138, R149). -/

namespace Sys2Proof.Machine

/-! ## Override stacks -/

theorem sameIdentity_iff (source : SourceKind) (origin : Option Station) (e : OverrideEntry) :
    sameIdentity source origin e = true ↔ e.source = source ∧ e.origin = origin := by
  simp [sameIdentity]

/-- A search that keeps what it has found, or takes the next entry, finds an entry of the stack. -/
theorem weakest_some {stack : List OverrideEntry} (h : stack ≠ []) : ∃ w ∈ stack, weakest stack = some w := by
  have hfold (rest : List OverrideEntry) (b : OverrideEntry) : ∃ w ∈ b :: rest,
      rest.foldl (fun best e => match best with
        | none => some e
        | some b => if e.precedence < b.precedence then some e else some b) (some b) = some w := by
    induction rest generalizing b with
    | nil => exact ⟨b, List.mem_singleton_self b, rfl⟩
    | cons e rest ih =>
      simp only [List.foldl_cons]
      split
      · obtain ⟨w, hw, heq⟩ := ih e
        exact ⟨w, List.mem_cons_of_mem b hw, heq⟩
      · obtain ⟨w, hw, heq⟩ := ih b
        refine ⟨w, ?_, heq⟩
        rcases List.mem_cons.mp hw with rfl | hw
        · exact List.mem_cons_self
        · exact List.mem_cons_of_mem _ (List.mem_cons_of_mem _ hw)
  cases stack with
  | nil => exact absurd rfl h
  | cons b rest => exact hfold rest b

theorem withoutIdentity_sublist (source : SourceKind) (origin : Option Station) (stack : List OverrideEntry) :
    (withoutIdentity source origin stack).Sublist stack := List.filter_sublist

/-- The removal of an identity that the stack holds frees a place. -/
theorem withoutIdentity_length_lt {source : SourceKind} {origin : Option Station} {stack : List OverrideEntry}
    (h : ∃ x ∈ stack, sameIdentity source origin x = true) :
    (withoutIdentity source origin stack).length < stack.length := by
  obtain ⟨x, hx, hsame⟩ := h
  exact List.length_filter_lt_length_iff_exists.mpr ⟨x, hx, by simp [hsame]⟩

namespace StackOk

variable {stack : List OverrideEntry}

theorem nil : StackOk [] := ⟨by simp, .nil, by simp⟩

theorem sublist {stack' : List OverrideEntry} (h : StackOk stack) (hsub : stack'.Sublist stack) : StackOk stack' :=
  ⟨hsub.length_le.trans h.room, h.apart.sublist hsub, fun e he => h.precedence e (hsub.subset he)⟩

/-- A free place takes an entry of a new identity. -/
theorem append {e : OverrideEntry} (h : StackOk stack) (hroom : stack.length < 4)
    (hnew : ∀ x ∈ stack, sameIdentity e.source e.origin x = false) (hprec : e.precedence ≤ 7) : StackOk (stack ++ [e]) where
  room := by simpa using hroom
  apart := by
    refine List.pairwise_append.mpr ⟨h.apart, List.pairwise_singleton _ e, fun x hx y hy => ?_⟩
    rw [List.mem_singleton.mp hy, ← sameIdentity_iff, hnew x hx]
    simp
  precedence := fun x hx => by
    rcases List.mem_append.mp hx with hx | hx
    · exact h.precedence x hx
    · rw [List.mem_singleton.mp hx]
      exact hprec

theorem withoutIdentity (h : StackOk stack) (source : SourceKind) (origin : Option Station) :
    StackOk (withoutIdentity source origin stack) := h.sublist (withoutIdentity_sublist source origin stack)

/-- An entry offered replaces its own kind, takes a free place, evicts the weakest entry or is refused (R138). -/
theorem offerEntry {e : OverrideEntry} (h : StackOk stack) (hprec : e.precedence ≤ 7) : StackOk (offerEntry e stack) := by
  unfold Machine.offerEntry
  split
  · rename_i hany
    refine (h.withoutIdentity _ _).append ?_ ?_ hprec
    · exact (withoutIdentity_length_lt (List.any_eq_true.mp hany)).trans_le h.room
    · intro x hx
      simpa using (List.mem_filter.mp hx).2
  · rename_i hany
    have hnew : ∀ x ∈ stack, sameIdentity e.source e.origin x = false := by simpa using hany
    split
    · exact h.append ‹_› hnew hprec
    · rename_i hfull
      obtain ⟨w, hw, hweakest⟩ := weakest_some (stack := stack) (by rintro rfl; simp at hfull)
      rw [hweakest]
      dsimp only
      split
      · refine (h.withoutIdentity _ _).append ?_ (fun x hx => hnew x (List.mem_of_mem_filter hx)) hprec
        exact (withoutIdentity_length_lt ⟨w, hw, (sameIdentity_iff ..).mpr ⟨rfl, rfl⟩⟩).trans_le h.room
      · exact h

end StackOk

/-- A directive's precedence is clamped to 1..6 (R140). -/
theorem directivePrecedence_le (p : Vector Byte 9) : directivePrecedence p ≤ 7 := by
  unfold directivePrecedence clampNat
  omega

/-! ## Latched flags -/

/-- A summary within another, flag by flag. -/
theorem and_not_eq_zero_iff (a b : Half) : a &&& ~~~b = 0 ↔ ∀ i < 16, a.getLsbD i = true → b.getLsbD i = true := by
  refine ⟨fun h i hi ha => ?_, fun h => BitVec.eq_of_getLsbD_eq fun i hi => ?_⟩
  · have hbit := congrArg (·.getLsbD i) h
    simpa [hi, ha] using hbit
  · simpa [hi] using h i hi

/-- The flags of R149 one by one: latched in LATCHED mode alone, and there wherever active. -/
def FlagsOk (modes : Half) (a : Alarms) : Prop :=
  ∀ i < 16, (a.latched.getLsbD i = true → modes.getLsbD i = true) ∧
    (a.active.getLsbD i = true → modes.getLsbD i = true → a.latched.getLsbD i = true)

theorem alarmsOk_iff (s : State) : AlarmsOk s ↔ FlagsOk s.start.config.alarms.latchedModes s.alarms := by
  have hcomparator := and_not_eq_zero_iff s.alarms.latched s.start.config.alarms.latchedModes
  have hlatched := and_not_eq_zero_iff (s.alarms.active &&& s.start.config.alarms.latchedModes) s.alarms.latched
  simp only [BitVec.getLsbD_and, Bool.and_eq_true, and_imp] at hlatched
  exact ⟨fun h i hi => ⟨hcomparator.mp h.comparator i hi, hlatched.mp h.latched i hi⟩,
    fun h => ⟨hcomparator.mpr fun i hi => (h i hi).1, hlatched.mpr fun i hi => (h i hi).2⟩⟩

namespace FlagsOk

variable {modes : Half} {a : Alarms}

theorem initial : FlagsOk modes Alarms.initial := by simp [FlagsOk, Alarms.initial]

/-- A cause that becomes true latches its condition; one that was true has it latched already (R149). -/
theorem updateAlarms (h : FlagsOk modes a) (now : Half) : FlagsOk modes (updateAlarms modes now a) := by
  intro i hi
  obtain ⟨-, hlatched⟩ := h i hi
  refine ⟨fun hset => ?_, fun hnow hmode => ?_⟩
  · simp only [Machine.updateAlarms, BitVec.getLsbD_and, Bool.and_eq_true] at hset
    exact hset.2
  · have hnow : now.getLsbD i = true := hnow
    cases hwas : a.active.getLsbD i with
    | false => 
      simp only [Machine.updateAlarms, BitVec.getLsbD_and, BitVec.getLsbD_or, BitVec.getLsbD_not, hi, hnow, hmode, hwas,
        decide_true, Bool.not_false, Bool.and_self, Bool.or_true]
    | true => simp [Machine.updateAlarms, hmode, hlatched hwas hmode]

theorem endCondition (h : FlagsOk modes a) (n : Nat) : FlagsOk modes (endCondition n a) := by
  intro i hi
  refine ⟨(h i hi).1, fun hactive => (h i hi).2 ?_⟩
  simp only [Machine.endCondition, BitVec.getLsbD_and, Bool.and_eq_true] at hactive
  exact hactive.1

/-- An acknowledgement leaves the latched flags of the active conditions (R150). -/
theorem acknowledge (h : FlagsOk modes a) : FlagsOk modes (acknowledge a) := by
  intro i hi
  obtain ⟨hmode, hlatched⟩ := h i hi
  simp only [Machine.acknowledge, BitVec.getLsbD_and, Bool.and_eq_true]
  exact ⟨fun hset => hmode hset.1, fun hactive hmodes => ⟨hlatched hactive hmodes, hactive⟩⟩

end FlagsOk

/-! ## Temperature guards -/

/-- What the temperature monitor holds by itself: nothing while in fault, and never both limits (R105, R107). -/
structure HeatGuards (h : Heat) : Prop where
  faulty : h.fault = true → h.last = none ∧ h.freeze = false ∧ h.overheat = false
  apart : ¬(h.freeze = true ∧ h.overheat = true)

theorem judgeFreeze_iff (c : HeatConfig) (t : Int) (was : Bool) : judgeFreeze c t was = true ↔
    t < c.criticalLow ∨ (t < c.criticalLow + c.hysteresis ∧ was = true) := by
  unfold judgeFreeze
  split_ifs with hlow hhigh
  · simp [hlow]
  · simp [hlow, hhigh]
  · simp [hlow, not_le.mp hhigh]

theorem judgeOverheat_iff (c : HeatConfig) (t : Int) (was : Bool) : judgeOverheat c t was = true ↔
    c.high < t ∨ (c.high - c.hysteresis < t ∧ was = true) := by
  unfold judgeOverheat
  split_ifs with hhigh hlow
  · simp [hhigh]
  · simp [hhigh, hlow]
  · simp [hhigh, not_le.mp hlow]

/-- With the limits as placed no reading holds both FREEZE and OVERHEAT (R105, R108, R109). -/
theorem judge_apart {c : HeatConfig} (hlimits : c.criticalLow + c.hysteresis ≤ c.high) (t : Int) {freeze overheat : Bool}
    (h : ¬(freeze = true ∧ overheat = true)) :
    ¬(judgeFreeze c t freeze = true ∧ judgeOverheat c t overheat = true) := by
  rw [judgeFreeze_iff, judgeOverheat_iff]
  rintro ⟨hcold | ⟨hcold, hfreeze⟩, hhot | ⟨hhot, hoverheat⟩⟩
  · omega
  · omega
  · omega
  · exact h ⟨hfreeze, hoverheat⟩

theorem HeatGuards.takeReading {c : HeatConfig} (hlimits : c.criticalLow + c.hysteresis ≤ c.high) {h : Heat}
    (hg : HeatGuards h) (reading : Option Int) : HeatGuards (takeReading c reading h) := by
  unfold Machine.takeReading
  split
  · exact ⟨fun _ => ⟨rfl, rfl, rfl⟩, by simp⟩
  · cases reading with
    | none => exact hg
    | some t => exact ⟨by simp, judge_apart hlimits t hg.apart⟩

/-- A reading leaves the stages to the staging that follows it (R106). -/
theorem takeReading_stages (c : HeatConfig) (reading : Option Int) (h : Heat) : (takeReading c reading h).stages = h.stages := by
  unfold takeReading
  split
  · rfl
  · cases reading <;> rfl

/-! ## Boost -/

/-- The count formed afresh, boost wherever it is above 0, and the recovery timer only below that (R101, R102). -/
theorem settleBoost_ok (now recovery : Nat) {d : Doors} (h : d.recoveryDue ≠ none → d.boost = true) :
    let b := settleBoost now recovery d
    (0 < b.openUnsealed → b.boost = true) ∧ (b.recoveryDue ≠ none → b.boost = true ∧ b.openUnsealed = 0) := by
  unfold settleBoost
  dsimp only
  split_ifs <;> simp_all

/-! ## The occupancy count -/

theorem changeCount_le {t : Traffic} (h : t.count ≤ 15) (d : Int) : (changeCount d t).count ≤ 15 := by
  unfold changeCount
  dsimp only
  split
  · exact h
  · dsimp only
    omega

end Sys2Proof.Machine
end

section
/-! SUPPORT. The units' invariants together: what each block's setter needs to keep them, and what the end of an event makes of
them (R68, R71, R76, R101, R102, R107, R116, R149). -/

namespace Sys2Proof.Machine

/-! ## The invariants, after an event and within it -/

/-- The units of a station are sound. -/
structure UnitsSound (s : State) : Prop where
  config : ConfigOk s.start.config
  shape : ShapeOk s
  overrides : StacksOk s
  traffic : TrafficOk s
  doors : DoorsOk s
  heat : HeatOk s
  alarms : AlarmsOk s

/-- What the end of an event needs of a running station to leave its units sound: the rest of the invariants it forms afresh. -/
structure UnitsReady (s : State) : Prop where
  running : s.start.running = true
  config : ConfigOk s.start.config
  shape : ShapeOk s
  overrides : StacksOk s
  count : s.traffic.count ≤ 15
  recovery : s.doors.recoveryDue ≠ none → s.doors.boost = true
  guards : HeatGuards s.heat
  alarms : FlagsOk s.start.config.alarms.latchedModes s.alarms

variable {s : State}

theorem UnitsSound.ready (h : UnitsSound s) (hrun : s.start.running = true) : UnitsReady s where
  running := hrun
  config := h.config
  shape := h.shape
  overrides := h.overrides
  count := h.traffic.count
  recovery := fun hdue => (h.doors.recovery hdue).1
  guards := ⟨h.heat.faulty, h.heat.apart⟩
  alarms := (alarmsOk_iff s).mp h.alarms

/-! ## The end of an event -/

theorem finish_shape (before : State) (work : Work) (h : ShapeOk s) : ShapeOk (finish before work s) := by
  have hloads := (h.published (publish_frame before s)).kept
    (settleLoads_frame ((publish before s).heat.stages.length + 2) (workFor before work (publish before s)) _)
  unfold finish
  dsimp only
  generalize settleLoads _ _ _ = w at hloads ⊢
  have hmeasured : ShapeOk (reportAlarms (measure w)) := hloads.of_counts (measured_start w) (measured_view w)
    (by rw [measured_traffic]) (by rw [measured_lighting]) (by rw [measured_lighting]) (by rw [measured_doors])
    (by rw [measured_heat])
  rcases offerSummaries_cases before (reportAlarms (measure w)) with he | he
  · rw [he]
    exact hmeasured
  · rw [he]
    exact hmeasured.of_counts rfl rfl rfl rfl rfl rfl rfl

section Ended

variable {before t : State} (h : EventFrame before s t)

include h

theorem EventFrame.present : present t.traffic = present s.traffic := by rw [h.traffic]; rfl

theorem EventFrame.trafficOk (hcount : s.traffic.count ≤ 15) : TrafficOk t where
  count := by
    rw [h.count]
    split_ifs <;> omega
  faulty := fun hfault => by
    have hgate : s.traffic.gate = .fault := by
      rw [h.traffic] at hfault
      exact hfault
    rw [h.uncertain, if_pos hgate]
  quiet := fun hok hzero hempty => by
    have hgate : s.traffic.gate ≠ .fault := by
      rw [h.traffic] at hok
      exact hok
    rw [h.uncertain, if_neg hgate, if_pos ⟨hzero, h.present ▸ hempty⟩]
  bay := by
    rw [h.bay]
    split_ifs with hocc hbay
    · simp [hocc]
    · simp [hocc]
    · simp [hocc, hbay]

theorem EventFrame.doorsOk (hrecovery : s.doors.recoveryDue ≠ none → s.doors.boost = true) : DoorsOk t := by
  have hstates : countUnsealed t.doors.records = countUnsealed s.doors.records := by
    have hbare (l : List Door) : countUnsealed l = countUnsealed (l.map Door.bare) := by
      simp [countUnsealed, List.countP_map, Function.comp_def, Door.bare]
    rw [hbare t.doors.records, h.doors, ← hbare]
  have hcount : t.doors.openUnsealed = (settleBoost s.clock s.cfg.doors.recovery s.doors).openUnsealed := by
    rw [h.openUnsealed, settleBoost_count]
  obtain ⟨hboost, hdue⟩ := settleBoost_ok s.clock s.cfg.doors.recovery hrecovery
  rw [← hcount, ← h.boost] at hboost
  rw [← hcount, ← h.boost, ← h.recovery] at hdue
  exact ⟨h.openUnsealed.trans hstates.symm, hboost, hdue⟩

/-- With OVERHEAT the row of every stage is an immediate release, so none is ON (R113, R116). -/
theorem EventFrame.heatOk (hguards : HeatGuards s.heat) (hstages : t.heat.stages.length = t.cfg.heat.stages.length) :
    HeatOk t := by
  have hfault : t.heat.fault = s.heat.fault := by rw [h.heat]
  have hlast : t.heat.last = s.heat.last := by rw [h.heat]
  have hfreeze : t.heat.freeze = s.heat.freeze := by rw [h.heat]
  have hover : t.heat.overheat = s.heat.overheat := by rw [h.heat]
  refine ⟨?_, ?_, fun hhot st hst => ?_⟩
  · rw [hfault, hlast, hfreeze, hover]
    exact hguards.faulty
  · rw [hfreeze, hover]
    exact hguards.apart
  · obtain ⟨k, hk⟩ := List.mem_iff_getElem?.mp hst
    have hkc : k < t.cfg.heat.stages.length := hstages ▸ (List.getElem?_eq_some_iff.mp hk).1
    have hsound : t.heat.fault = false := by
      refine Bool.eq_false_iff.mpr fun hbad => ?_
      have := (hguards.faulty (hfault ▸ hbad)).2.2
      simp [← hover, hhot] at this
    have hrow : stageCall (isWorking t) (holdRules (rulingEffect t.overrides.heat)) t.heat k st.call = .released true := by
      simp [stageCall, hsound, hhot]
    have hdemand := h.demands.stages k _ st (List.getElem?_eq_getElem hkc) hk
    rw [hrow, StageDemandOk] at hdemand
    by_contra hon
    rw [if_pos (by simpa using hon)] at hdemand
    simp at hdemand

end Ended

/-- The end of an event leaves the units sound. -/
theorem UnitsReady.finish (h : UnitsReady s) (before : State) (work : Work) : UnitsSound (finish before work s) := by
  have hend := finish_frame before work s
  have hshape := finish_shape before work h.shape
  generalize Machine.finish before work s = t at hend hshape ⊢
  exact {
    config := by rw [hend.start]; exact h.config
    shape := hshape
    overrides := by
      obtain ⟨hlight, hheat, hvent⟩ := h.overrides
      rw [← hend.overrides] at hlight hheat hvent
      exact ⟨hlight, hheat, hvent⟩
    traffic := hend.trafficOk h.count
    doors := hend.doorsOk h.recovery
    heat := hend.heatOk h.guards (hshape.stages (by rw [hend.start]; exact h.running))
    alarms := by
      rw [alarmsOk_iff, hend.alarms, hend.start]
      exact h.alarms.updateAlarms _ }

/-! ## The blocks, one by one -/

/-- `t` has the units of `s`, but for lighting levels and timers. -/
structure SameUnits (s t : State) : Prop where
  start : t.start = s.start
  entries : t.view.entries.length = s.view.entries.length
  traffic : t.traffic = s.traffic
  bay : t.lighting.bay = s.lighting.bay
  channels : t.lighting.channels.length = s.lighting.channels.length
  docks : t.lighting.docks.length = s.lighting.docks.length
  doors : t.doors = s.doors
  heat : t.heat = s.heat
  overrides : t.overrides = s.overrides
  alarms : t.alarms = s.alarms

namespace SameUnits

variable {t u : State}

theorem refl (s : State) : SameUnits s s := ⟨rfl, rfl, rfl, rfl, rfl, rfl, rfl, rfl, rfl, rfl⟩

theorem trans (h : SameUnits s t) (k : SameUnits t u) : SameUnits s u where
  start := k.start.trans h.start
  entries := k.entries.trans h.entries
  traffic := k.traffic.trans h.traffic
  bay := k.bay.trans h.bay
  channels := k.channels.trans h.channels
  docks := k.docks.trans h.docks
  doors := k.doors.trans h.doors
  heat := k.heat.trans h.heat
  overrides := k.overrides.trans h.overrides
  alarms := k.alarms.trans h.alarms

theorem shape (k : SameUnits s t) (h : ShapeOk s) : ShapeOk t where
  entries := k.entries.trans h.entries
  zones := by rw [k.traffic]; exact h.zones
  channels := k.channels.trans h.channels
  pages := by rw [State.cfg, k.start]; exact h.pages
  channelConfigs := by rw [State.cfg, k.start]; exact h.channelConfigs
  doorConfigs := by rw [State.cfg, k.start]; exact h.doorConfigs
  docks := by rw [State.cfg, k.start, k.docks]; exact h.docks
  doors := by rw [State.cfg, k.start, k.doors]; exact h.doors
  stages := by rw [State.cfg, k.start, k.heat]; exact h.stages

theorem stacksOk (k : SameUnits s t) (h : StacksOk s) : StacksOk t := by
  obtain ⟨hlight, hheat, hvent⟩ := h
  rw [← k.overrides] at hlight hheat hvent
  exact ⟨hlight, hheat, hvent⟩

theorem sound (k : SameUnits s t) (h : UnitsSound s) : UnitsSound t where
  config := by rw [k.start]; exact h.config
  shape := k.shape h.shape
  overrides := k.stacksOk h.overrides
  traffic := by
    obtain ⟨hcount, hfaulty, hquiet, hbay⟩ := h.traffic
    rw [← k.traffic] at hcount hfaulty hquiet hbay
    rw [← k.bay] at hbay
    exact ⟨hcount, hfaulty, hquiet, hbay⟩
  doors := by
    obtain ⟨hcount, hboost, hrecovery⟩ := h.doors
    rw [← k.doors] at hcount hboost hrecovery
    exact ⟨hcount, hboost, hrecovery⟩
  heat := by
    obtain ⟨hfaulty, hapart, hcut⟩ := h.heat
    rw [← k.heat] at hfaulty hapart hcut
    exact ⟨hfaulty, hapart, hcut⟩
  alarms := by
    rw [alarmsOk_iff, k.start, k.alarms]
    exact (alarmsOk_iff s).mp h.alarms

theorem ready (k : SameUnits s t) (h : UnitsReady s) : UnitsReady t where
  running := by rw [k.start]; exact h.running
  config := by rw [k.start]; exact h.config
  shape := k.shape h.shape
  overrides := k.stacksOk h.overrides
  count := by rw [k.traffic]; exact h.count
  recovery := by rw [k.doors]; exact h.recovery
  guards := by rw [k.heat]; exact h.guards
  alarms := by rw [k.start, k.alarms]; exact h.alarms

end SameUnits

namespace UnitsReady

variable (h : UnitsReady s)

include h

theorem setTraffic {t : Traffic} (hzones : t.zones.length = s.traffic.zones.length) (hcount : t.count ≤ 15) :
    UnitsReady (s.setTraffic t) :=
  { h with shape := { h.shape with zones := hzones.trans h.shape.zones }, overrides := { h.overrides with }, count := hcount }

theorem setLighting {l : Lighting} (hchannels : l.channels.length = s.lighting.channels.length)
    (hdocks : l.docks.length = s.lighting.docks.length) : UnitsReady (s.setLighting l) :=
  { h with
    shape := { h.shape with
      channels := hchannels.trans h.shape.channels, docks := fun hrun => hdocks.trans (h.shape.docks hrun) }
    overrides := { h.overrides with } }

theorem setDoors {d : Doors} (hrecords : d.records.length = s.doors.records.length)
    (hrecovery : d.recoveryDue ≠ none → d.boost = true) : UnitsReady (s.setDoors d) :=
  { h with
    shape := { h.shape with doors := fun hrun => hrecords.trans (h.shape.doors hrun) }
    overrides := { h.overrides with }, recovery := hrecovery }

theorem setHeat {b : Heat} (hstages : b.stages.length = s.heat.stages.length) (hguards : HeatGuards b) :
    UnitsReady (s.setHeat b) :=
  { h with
    shape := { h.shape with stages := fun hrun => hstages.trans (h.shape.stages hrun) }
    overrides := { h.overrides with }, guards := hguards }

theorem setOverrides {o : Overrides} (hlight : StackOk o.light) (hheat : StackOk o.heat) (hvent : StackOk o.vent) :
    UnitsReady (s.setOverrides o) := { h with shape := { h.shape with }, overrides := ⟨hlight, hheat, hvent⟩ }

theorem setAlarms {a : Alarms} (hflags : FlagsOk s.start.config.alarms.latchedModes a) : UnitsReady (s.setAlarms a) :=
  { h with shape := { h.shape with }, overrides := { h.overrides with }, alarms := hflags }

end UnitsReady

end Sys2Proof.Machine
end

section
/-! SUPPORT. The units' invariants within an event: what the operations that commands share leave for its end. -/

namespace Sys2Proof.Machine

/-! ## Operations that touch no unit's invariant -/

section Same

variable (s : State)

theorem sameUnits_offer (b : Bulletin) : SameUnits s (offer b s) := by
  constructor <;> simp

theorem sameUnits_measure : SameUnits s (measure s) := by
  constructor <;> simp [measure]

theorem sameUnits_setLine (l : Line) : SameUnits s (s.setLine l) := ⟨rfl, rfl, rfl, rfl, rfl, rfl, rfl, rfl, rfl, rfl⟩

theorem sameUnits_setView (v : View) (h : v.entries.length = s.view.entries.length := by rfl) : SameUnits s (s.setView v) :=
  ⟨rfl, h, rfl, rfl, rfl, rfl, rfl, rfl, rfl, rfl⟩

theorem sameUnits_setShift (b : Shift) : SameUnits s (s.setShift b) := ⟨rfl, rfl, rfl, rfl, rfl, rfl, rfl, rfl, rfl, rfl⟩

theorem sameUnits_setAir (a : Air) : SameUnits s (s.setAir a) := ⟨rfl, rfl, rfl, rfl, rfl, rfl, rfl, rfl, rfl, rfl⟩

theorem sameUnits_setAlloc (a : Alloc) : SameUnits s (s.setAlloc a) := ⟨rfl, rfl, rfl, rfl, rfl, rfl, rfl, rfl, rfl, rfl⟩

theorem sameUnits_onManual (f : Debounced → Debounced) : SameUnits s (onManual f s) :=
  ⟨rfl, rfl, rfl, rfl, rfl, rfl, rfl, rfl, rfl, rfl⟩

theorem sameUnits_stepRise (i : Fin 4) : SameUnits s (stepRise i s) :=
  ⟨rfl, rfl, rfl, rfl, updateAt_length _ _ _, rfl, rfl, rfl, rfl, rfl⟩

theorem sameUnits_onEntry (n : Nat) (f : PeerEntry → PeerEntry) : SameUnits s (onEntry n f s) :=
  sameUnits_setView s _ (updateAt_length _ _ _)

theorem sameUnits_onFan (n : Fin 2) (f : FanConfig → Fan → Fan) : SameUnits s (onFan n f s) := by
  rw [onFan_eq n f rfl]
  exact sameUnits_setAir s _

theorem sameUnits_sampleGas (g : Gas) (value : Option Nat) : SameUnits s (sampleGas g value s) := by
  cases g <;> exact sameUnits_setAir s _

theorem sameUnits_balance : SameUnits s (balance s) := by
  rw [balance_eq]
  exact sameUnits_setAir s _

theorem sameUnits_scheduleBeacon : SameUnits s (scheduleBeacon s) := by
  unfold scheduleBeacon
  dsimp only
  split
  · exact sameUnits_setView s _
  · exact (sameUnits_setView s _).trans (sameUnits_offer _ _)

theorem sameUnits_takePulse : SameUnits s (takePulse s) := (sameUnits_setAlloc s _).trans (sameUnits_setShift _ _)

/-! The link state (R33 to R36). -/

theorem sameUnits_addCause (cause : SilentCause) : SameUnits s (addCause cause s) := by
  unfold addCause
  dsimp only
  split
  · exact sameUnits_setView s _
  · exact (sameUnits_setView s _).trans ((sameUnits_setView _ _).trans (sameUnits_setLine _ _))

theorem sameUnits_removeCause (cause : SilentCause) : SameUnits s (removeCause cause s) := by
  unfold removeCause
  dsimp only
  split
  · exact (sameUnits_setView s _).trans (sameUnits_setView _ _)
  · exact sameUnits_setView s _

theorem sameUnits_resetLink : SameUnits s (resetLink s) := by
  unfold resetLink
  split
  · exact sameUnits_setView s _
  · exact sameUnits_setView s _
  · exact .refl s
  · exact .refl s

theorem sameUnits_completeLink : SameUnits s (completeLink s) := by
  unfold completeLink
  split
  · exact sameUnits_setView s _
  · exact .refl s

theorem sameUnits_endListen : SameUnits s (endListen s) := by
  unfold endListen
  split <;> exact sameUnits_setView s _

end Same

/-! ## The traffic unit -/

theorem changeCount_zones (d : Int) (t : Traffic) : (changeCount d t).zones = t.zones := by
  unfold changeCount
  dsimp only
  split <;> rfl

/-- `t'` has the zones and the count of `t`, which the gate decoder leaves. -/
structure SameBay (t t' : Traffic) : Prop where
  zones : t'.zones = t.zones
  count : t'.count = t.count

theorem SameBay.trans {t t' t'' : Traffic} (h : SameBay t t') (k : SameBay t' t'') : SameBay t t'' :=
  ⟨k.zones.trans h.zones, k.count.trans h.count⟩

theorem sameBay_toggleBeam (beam : Beam) (t : Traffic) : SameBay t (toggleBeam beam t) := by
  rw [toggleBeam_eq]
  exact ⟨rfl, rfl⟩

theorem sameBay_beginTracking (t : Traffic) : SameBay t (beginTracking t) := by
  unfold beginTracking
  split <;> exact ⟨rfl, rfl⟩

theorem sameBay_invalidTransition (now : Nat) (t : Traffic) : SameBay t (invalidTransition now t) := by
  unfold invalidTransition invalidWhileOk
  dsimp only
  split_ifs
  · exact ⟨rfl, rfl⟩
  · exact ⟨rfl, rfl⟩
  · refine SameBay.trans ?_ (sameBay_beginTracking _)
    exact ⟨rfl, rfl⟩

theorem sameBay_clearGateFault (t : Traffic) : SameBay t (clearGateFault t) := by
  refine SameBay.trans ?_ (sameBay_beginTracking _)
  exact ⟨rfl, rfl⟩

namespace UnitsReady

variable {s : State} (h : UnitsReady s)

include h

theorem sameBay {t : Traffic} (ht : SameBay s.traffic t) : UnitsReady (s.setTraffic t) :=
  h.setTraffic (congrArg _ ht.zones) (ht.count.trans_le h.count)

theorem takeCrossing (dir : Travel) : UnitsReady (takeCrossing dir s) := by
  have hcounted := (sameUnits_setShift _ { s.shift with crossings := min 65535 (s.shift.crossings + 1) }).ready
    (h.sameBay (t := { s.traffic with gateCount := s.traffic.gateCount + 1 }) ⟨rfl, rfl⟩)
  have hoffered := (sameUnits_offer _ (.handoff (handoffFor s.cfg.gate.spacing dir (s.traffic.gateCount + 1) s.traffic))).ready
    hcounted
  exact hoffered.setTraffic (congrArg _ (changeCount_zones _ _)) (changeCount_le hoffered.count _)

theorem endPassage : UnitsReady (endPassage s) := by
  unfold Machine.endPassage
  dsimp only
  split
  · exact (h.takeCrossing _).sameBay ⟨rfl, rfl⟩
  · exact h.sameBay ⟨rfl, rfl⟩

theorem beamChange (beam : Beam) : UnitsReady (beamChange beam s) := by
  have htoggled := sameBay_toggleBeam beam s.traffic
  unfold Machine.beamChange
  dsimp only
  split_ifs
  · refine UnitsReady.endPassage (h.sameBay (htoggled.trans ?_))
    exact ⟨rfl, rfl⟩
  · exact h.sameBay (htoggled.trans ⟨rfl, rfl⟩)
  · exact h.sameBay (htoggled.trans (sameBay_beginTracking _))
  · exact h.sameBay htoggled

theorem onZone (z : Fin 4) (f : Zone → Zone) : UnitsReady (onZone z f s) := h.setTraffic (updateAt_length _ _ _) h.count

/-! ## The other blocks -/

theorem onDoor (d : Fin 8) (f : Door → Door) : UnitsReady (onDoor d f s) := h.setDoors (updateAt_length _ _ _) h.recovery

theorem onStackOf (k : StackId) {f : List OverrideEntry → List OverrideEntry} (hf : ∀ stack, StackOk stack → StackOk (f stack)) :
    UnitsReady (onStackOf k f s) := by
  obtain ⟨hlight, hheat, hvent⟩ := h.overrides
  cases k with
  | light => exact h.setOverrides (hf _ hlight) hheat hvent
  | heat => exact h.setOverrides hlight (hf _ hheat) hvent
  | vent => exact h.setOverrides hlight hheat (hf _ hvent)

theorem reformHeat : UnitsReady (reformHeat s) :=
  h.setHeat (b := (Machine.reformHeat s).heat) (reformHeat_stageCount s) ⟨h.guards.faulty, h.guards.apart⟩

theorem reformChannels : UnitsReady (reformChannels s) :=
  h.setLighting (l := (Machine.reformChannels s).lighting) (reformChannels_count s) rfl

theorem stageReading : UnitsReady (stageReading s) :=
  h.setHeat (b := (Machine.stageReading s).heat) (stageReading_stageCount s) ⟨h.guards.faulty, h.guards.apart⟩

theorem readTemperature (value : Option Int) : UnitsReady (readTemperature value s) := by
  have htaken := h.guards.takeReading h.config.limits.2.2.1 value
  refine (h.setHeat ?_ ?_).stageReading
  · exact congrArg List.length (takeReading_stages _ _ _)
  · exact ⟨htaken.faulty, htaken.apart⟩

/-! ## The shift tracker -/

theorem changePage (p : Fin 4) : UnitsReady (changePage p s) := by
  have hpage := (sameUnits_setShift s { s.shift with page := p }).ready h
  unfold Machine.changePage
  dsimp only
  split
  · exact h
  · refine (UnitsReady.reformChannels ?_).reformHeat
    split
    · exact hpage
    · unfold pageBecameIdle
      split
      · exact hpage.setLighting rfl rfl
      · exact hpage

theorem offerChangeover (expiry : Nat) : UnitsReady (offerChangeover expiry s) :=
  h.setOverrides (h.overrides.light.offerEntry (Nat.zero_le _)) (h.overrides.heat.offerEntry (Nat.zero_le _)) h.overrides.vent

theorem removeChangeover : UnitsReady (removeChangeover s) :=
  h.setOverrides (h.overrides.light.withoutIdentity _ _) (h.overrides.heat.withoutIdentity _ _) h.overrides.vent

theorem startChangeover : UnitsReady (startChangeover s) := by
  unfold Machine.startChangeover
  dsimp only
  split
  · exact ((sameUnits_setShift s _).ready h).removeChangeover
  · exact ((sameUnits_setShift s _).ready h).offerChangeover _

theorem rollAccumulators : UnitsReady (rollAccumulators s) :=
  ((sameUnits_setShift s _).ready h).setDoors (by simp) h.recovery

theorem adopt (e : Byte) (p : Fin 4) : UnitsReady (adopt e p s) :=
  (sameUnits_setShift _ _).ready (((sameUnits_setShift _ _).ready h.rollAccumulators).changePage p).startChangeover

theorem settleLowerPage (p : Fin 4) : UnitsReady (settleLowerPage p s) := by
  unfold Machine.settleLowerPage
  dsimp only
  split
  · exact (h.changePage p).offerChangeover _
  · exact h.changePage p

theorem adoptionTest (e : Byte) (p : Fin 4) : UnitsReady (adoptionTest e p s) := by
  unfold Machine.adoptionTest
  split
  · exact h.adopt e p
  · split_ifs
    · exact h.adopt e p
    · exact h.settleLowerPage p
    · exact h

theorem press : UnitsReady (press s) := by
  unfold Machine.press
  split
  · exact (sameUnits_offer _ _).ready (h.adopt _ _)
  · exact h

/-! ## Deliveries -/

theorem deliverBeacon (sender : Station) (p : Vector Byte 24) : UnitsReady (deliverBeacon sender p s) := by
  have hshift {u : State} (hu : UnitsReady u) : UnitsReady (beaconShift (beaconOf p) u) := by
    unfold beaconShift
    split
    · exact hu.adoptionTest _ _
    · exact hu
  have hgate {u : State} (hu : UnitsReady u) : UnitsReady (beaconGate sender (beaconOf p) u) := by
    unfold beaconGate
    split
    · exact hu.sameBay ⟨rfl, rfl⟩
    · exact hu
  unfold Machine.deliverBeacon
  split
  · exact hgate (hshift ((sameUnits_onEntry s _ _).ready h))
  · exact h

theorem deliverHandoff (sender : Station) (p : Vector Byte 4) : UnitsReady (deliverHandoff sender p s) := by
  have hcount (fields : Handoff) : UnitsReady (handoffCount sender fields s) := by
    unfold handoffCount
    split
    · exact h.setTraffic (congrArg List.length (changeCount_zones _ _)) (changeCount_le h.count _)
    · exact h
  have hlead (fields : Handoff) {u : State} (hu : UnitsReady u) : UnitsReady (handoffLeadIn sender fields u) := by
    unfold handoffLeadIn leadInTrigger
    split_ifs
    · exact hu
    · exact hu.setLighting rfl rfl
    · exact hu
  unfold Machine.deliverHandoff
  split
  · exact hlead _ (hcount _)
  · exact h

theorem deliverShift (p : Vector Byte 2) : UnitsReady (deliverShift p s) := by
  unfold Machine.deliverShift
  split
  · exact h.adoptionTest _ _
  · exact h

theorem deliverAlarm (sender : Station) (p : Vector Byte 4) : UnitsReady (deliverAlarm sender p s) := by
  unfold Machine.deliverAlarm
  split
  · exact (sameUnits_onEntry s _ _).ready h
  · exact h

theorem placeEntry (kind : DirectiveKind) (k : StackId) (sender : Station) (p : Vector Byte 9) :
    UnitsReady (placeEntry kind k sender p s) := by
  unfold Machine.placeEntry
  split
  · exact h.onStackOf k fun _ hstack => hstack.offerEntry (directivePrecedence_le p)
  · exact h

theorem releaseEntries (sender : Station) (p : Vector Byte 9) : UnitsReady (releaseEntries sender p s) := by
  have hstack (k : StackId) {stack : List OverrideEntry} (ho : StackOk stack) : StackOk (releaseStack sender p k stack) := by
    unfold releaseStack
    split
    · exact ho.sublist List.filter_sublist
    · exact ho
  exact h.setOverrides (hstack _ h.overrides.light) (hstack _ h.overrides.heat) (hstack _ h.overrides.vent)

theorem acknowledgeAlarms : UnitsReady (acknowledgeAlarms s) := h.setAlarms h.alarms.acknowledge

theorem lowerLost (n : Nat) : UnitsReady (lowerLost n s) := by
  unfold Machine.lowerLost
  split
  · exact h.sameBay ⟨rfl, rfl⟩
  · exact h

end UnitsReady

end Sys2Proof.Machine
end

section
/-! SUPPORT. The units' invariants, command by command: the changes without an end of event, the accepted frames, the starts; the
statement that every step keeps them. -/

namespace Sys2Proof.Machine

/-! ## Changes without an end of event -/

/-- A change of the element at a place that leaves what is read of it leaves that of the whole list. -/
theorem updateAt_map_of_getElem? {α γ : Type} (g : α → γ) {i : Nat} {f : α → α} {l : List α} {x : α} (hx : l[i]? = some x)
    (hf : g (f x) = g x) : (updateAt i f l).map g = l.map g := by
  refine List.ext_getElem? fun j => ?_
  rw [List.getElem?_map, List.getElem?_map, updateAt_getElem?]
  split
  · rename_i hj
    simp [hj, hx, hf]
  · rfl

namespace UnitsSound

variable {s : State} (h : UnitsSound s)

include h

/-- What is no change of a door's state leaves the open-unsealed count (R93, R101, R103). -/
theorem onDoor (d : Fin 8) {f : Door → Door} (hf : ∀ r, (f r).state = r.state) : UnitsSound (onDoor d f s) := by
  have hcount : countUnsealed (updateAt d.val f s.doors.records) = countUnsealed s.doors.records := by
    have hstates (l : List Door) : countUnsealed l = (l.map Door.state).countP isUnsealedState := by
      rw [List.countP_map]
      rfl
    rw [hstates, hstates, updateAt_map _ _ _ _ fun r _ => hf r]
  exact { h with
    shape := { h.shape with doors := fun hrun => (updateAt_length _ _ _).trans (h.shape.doors hrun) }
    overrides := { h.overrides with }
    traffic := { h.traffic with }
    doors := ⟨h.doors.count.trans hcount.symm, h.doors.boost, h.doors.recovery⟩
    heat := { h.heat with }
    alarms := { h.alarms with } }

/-- A released presence input leaves its zone active (R69). -/
theorem releaseZone {z : Fin 4} (hset : (zoneOf z s).asserted = true) :
    UnitsSound (onZone z (fun _ => { asserted := false, releasedAt := some s.clock }) s) := by
  obtain ⟨x, hx⟩ : ∃ x, s.traffic.zones[z.val]? = some x := by
    cases hz : s.traffic.zones[z.val]? with
    | none => simp [zoneOf, List.getD_eq_getElem?_getD, hz] at hset
    | some x => exact ⟨x, rfl⟩
  rw [zoneOf_of_getElem? hx] at hset
  have hactive (l : List Zone) : l.any Zone.active = (l.map Zone.active).any id := by
    rw [List.any_map]
    rfl
  have hpresent : present { s.traffic with
      zones := updateAt z.val (fun _ => { asserted := false, releasedAt := some s.clock }) s.traffic.zones } =
      present s.traffic := by
    rw [present, hactive, updateAt_map_of_getElem? _ hx (by simp [Zone.active, hset]), ← hactive]
    rfl
  have hoccupied : occupied { s.traffic with
      zones := updateAt z.val (fun _ => { asserted := false, releasedAt := some s.clock }) s.traffic.zones } =
      occupied s.traffic := by
    rw [occupied, hpresent]
    rfl
  exact { h with
    shape := { h.shape with zones := (updateAt_length _ _ _).trans h.shape.zones }
    overrides := { h.overrides with }
    traffic := ⟨h.traffic.count, h.traffic.faulty, fun hok hzero hempty => h.traffic.quiet hok hzero (hpresent ▸ hempty),
      h.traffic.bay.trans (iff_of_eq (congrArg (· = true) hoccupied.symm))⟩
    doors := { h.doors with }
    heat := { h.heat with }
    alarms := { h.alarms with } }

theorem setAlarms {a : Alarms} (hflags : FlagsOk s.start.config.alarms.latchedModes a) : UnitsSound (s.setAlarms a) :=
  { h with
    shape := { h.shape with }
    overrides := { h.overrides with }
    traffic := { h.traffic with }
    doors := { h.doors with }
    heat := { h.heat with }
    alarms := (alarmsOk_iff _).mpr hflags }

/-! ## Accepted frames -/

/-- A frame heard touches the link state, and may end the ISOLATED condition (R10, R27, R38). -/
theorem heard (kind : Nat) (sender : Station) (payload : List Byte) : UnitsSound (heard kind sender payload s) := by
  have hends : UnitsSound (frameEnds kind sender payload s) := (sameUnits_setLine s _).sound h
  unfold Machine.heard peerFrame
  generalize frameEnds kind sender payload s = u at hends ⊢
  (repeat' split)
  · exact (sameUnits_setView u _).sound hends
  · exact (sameUnits_setView u _).sound hends
  · refine ((sameUnits_setView u _).trans (sameUnits_setView _ _)).sound hends |>.setAlarms ?_
    exact ((alarmsOk_iff u).mp hends.alarms).endCondition 10
  · exact hends
  · exact hends
  · exact hends

theorem finishLink (hrun : s.start.running = true) (before : State) : UnitsSound (finishLink before s) := by
  rcases finishLink_cases before s with he | he
  · rw [he]
    exact h
  · rw [he]
    exact (h.ready hrun).finish before .none

/-- A frame is taken with a delivery and a close that keep the units sound. -/
theorem takeFrame (kind : Nat) (sender : Station) (payload : List Byte) {deliver : State → State}
    {close : State → State → State}
    (hclose : ∀ u, UnitsSound u → u.start.running = true → u.start = s.start → UnitsSound (close s (deliver u))) :
    UnitsSound (takeFrame kind sender payload deliver close s) := by
  have hheard := h.heard kind sender payload
  have hstart := (heard_frame kind sender payload s).start
  have hrun (hmay : mayAccept s = true) : (Machine.heard kind sender payload s).start.running = true := by
    rw [hstart]
    exact (Bool.and_eq_true_iff.mp hmay).1
  rcases takeFrame_cases kind sender payload deliver close s with ⟨-, ht⟩ | ⟨hmay, -, ht⟩ | ⟨hmay, -, ht⟩
  · rw [ht]
    exact h
  · rw [ht]
    exact ((sameUnits_addCause _ _).ready (hheard.ready (hrun hmay))).finish s .none
  · rw [ht]
    exact hclose _ hheard (hrun hmay) hstart

/-- A frame whose delivery ends its event. -/
theorem frameEvent (kind : Nat) (sender : Station) (payload : List Byte) {deliver : State → State}
    (hdeliver : ∀ u, UnitsReady u → UnitsReady (deliver u)) :
    UnitsSound (Machine.takeFrame kind sender payload deliver (fun b t => finish b .none t) s) :=
  h.takeFrame kind sender payload fun u hu hrun _ => (hdeliver u (hu.ready hrun)).finish s .none

theorem passFrame (kind : Nat) (sender : Station) (payload : List Byte) : UnitsSound (passFrame kind sender payload s) :=
  h.takeFrame kind sender payload fun _ hu hrun _ => hu.finishLink hrun s

theorem takeDirective (kind : DirectiveKind) (sender : Station) (p : Vector Byte 9) {deliver : State → State}
    (hdeliver : ∀ u, UnitsReady u → UnitsReady (deliver u)) : UnitsSound (takeDirective kind sender p deliver s) := by
  unfold Machine.takeDirective
  split_ifs
  · exact h.frameEvent _ _ _ hdeliver
  · exact h.passFrame _ _ _
  · exact h

theorem takeQuery (row : Nat) (sender : Station) (p : Vector Byte 3) : UnitsSound (takeQuery row sender p s) := by
  unfold Machine.takeQuery
  split_ifs
  · refine h.takeFrame _ _ _ fun u hu hrun _ => ?_
    have hoffered := sameUnits_offer u (answerTo sender p u)
    exact (hoffered.sound hu).finishLink (by rw [hoffered.start]; exact hrun) s
  · exact h.passFrame _ _ _
  · exact h

/-- A beacon of a station that is no peer is not delivered, and may end a change of the link state (R27, R28). -/
theorem beaconFrame (sender : Station) (p : Vector Byte 24) :
    UnitsSound (Machine.takeFrame kindBeacon sender p.toList (deliverBeacon sender p) (closeBeacon sender) s) := by
  refine h.takeFrame _ _ _ fun u hu hrun hstart => ?_
  unfold closeBeacon
  split
  · exact ((hu.ready hrun).deliverBeacon sender p).finish s .recompute
  · rename_i hnone
    have hpeer : isPeer sender u = isPeer sender s := by simp [isPeer, hstart]
    have hdeliver : deliverBeacon sender p u = u := if_neg (hpeer ▸ hnone)
    rw [hdeliver]
    exact hu.finishLink hrun s

end UnitsSound

/-! ## The starts -/

/-- A start sequence holds every unit at its initial state, the doors closed (R174, R177). -/
theorem unitsSound_of_starting {s : State} (hconfig : ConfigOk s.start.config) (hrun : s.start.running = false)
    (hentries : s.view.entries.length = 32) (htraffic : s.traffic = Traffic.initial) (hlighting : s.lighting = Lighting.initial)
    (hdoors : s.doors = { Doors.initial with records := s.doors.records }) (hclosed : ∀ r ∈ s.doors.records, r.state = .closed)
    (hheat : s.heat = Heat.initial) (hoverrides : s.overrides = Overrides.initial) (halarms : s.alarms = Alarms.initial) :
    UnitsSound s where
  config := hconfig
  shape := {
    entries := hentries
    zones := by rw [htraffic]; rfl
    channels := by rw [hlighting]; rfl
    pages := hconfig.pageCount
    channelConfigs := hconfig.channels.1
    doorConfigs := hconfig.doors.1
    docks := by simp [hrun]
    doors := by simp [hrun]
    stages := by simp [hrun] }
  overrides := by
    constructor <;> rw [hoverrides] <;> exact .nil
  traffic := by
    constructor <;> rw [htraffic]
    · decide
    · decide
    · decide
    · rw [hlighting]
      decide
  doors := by
    have hnone : countUnsealed s.doors.records = 0 := by
      refine List.countP_eq_zero.mpr fun r hr => ?_
      rw [hclosed r hr]
      decide
    refine ⟨?_, ?_, ?_⟩
    · rw [hnone, hdoors]
      rfl
    · rw [hdoors]
      simp [Doors.initial]
    · rw [hdoors]
      simp [Doors.initial]
  heat := by
    constructor <;> rw [hheat] <;> simp [Heat.initial]
  alarms := by
    rw [alarmsOk_iff, halarms]
    exact .initial

theorem unitsSound_powerOn (s : State) : UnitsSound (powerOn s) :=
  unitsSound_of_starting builtIn_ok rfl rfl rfl rfl rfl (by simp [powerOn, State.reset, Doors.initial]) rfl rfl rfl

theorem UnitsSound.beginRestart {s : State} (h : UnitsSound s) : UnitsSound (beginRestart s) :=
  unitsSound_of_starting h.config rfl rfl rfl rfl rfl (by simp [Machine.beginRestart, restartDoors, freshDoor]) rfl rfl rfl

/-- The blocks with their starting values are ready for the end of the start sequence (R174 step 6). -/
theorem unitsReady_startedBlocks (r : StartReading) (s : State) : UnitsReady (startedBlocks r s) := by
  have hconfig := configFor_ok r.image
  have hfirst {u : State} (hu : UnitsReady u) : UnitsReady (firstLink u) := by
    unfold firstLink
    split
    · exact (sameUnits_setView u _).ready hu
    · exact hu
  have htraffic := sameBay_beginTracking { Traffic.initial with
    gate := if (configFor r.image).gate.present then .ok else .none
    beamA := (configFor r.image).gate.present && r.beamA
    beamB := (configFor r.image).gate.present && r.beamB
    zones := r.presence.toList.map fun a => { asserted := a, releasedAt := none } }
  refine (hfirst ?_).reformHeat
  exact {
    running := rfl
    config := hconfig
    shape := {
      entries := by simp [startedView, startedEntries]
      zones := by
        refine (congrArg List.length htraffic.zones).trans ?_
        simp
      channels := rfl
      pages := hconfig.pageCount
      channelConfigs := hconfig.channels.1
      doorConfigs := hconfig.doors.1
      docks := fun _ => List.length_replicate
      doors := fun _ => by simp [startedDoors]
      stages := fun _ => (congrArg List.length (takeReading_stages _ _ _)).trans List.length_replicate }
    overrides := {
      light := by
        change StackOk (if r.manual then [manualEntry] else [])
        split
        · exact StackOk.nil.append (by decide) (by simp) (by decide)
        · exact .nil
      heat := .nil
      vent := .nil }
    count := htraffic.count.trans_le (Nat.zero_le 15)
    recovery := fun hdue => absurd rfl hdue
    guards := HeatGuards.takeReading hconfig.limits.2.2.1 ⟨by simp [Heat.initial], by simp [Heat.initial]⟩ _
    alarms := .initial }

/-! ## Every command -/

/-- A command that leaves sound units. -/
def KeepsUnits (a : Answer) : Prop := ∃ t, a = .next t ∧ UnitsSound t

section Commands

variable {s u : State} (h : UnitsSound s) {c : Prop} [Decidable c]

include h

theorem KeepsUnits.guarded (hu : c → UnitsSound u) : KeepsUnits (.next (if c then u else s)) := by
  refine ⟨_, rfl, ?_⟩
  split
  · exact hu ‹_›
  · exact h

/-- A command whose change touches no unit's invariant. -/
theorem KeepsUnits.same (hu : SameUnits s u) : KeepsUnits (.next (if c then u else s)) := .guarded h fun _ => hu.sound h

/-- A command of a running station whose change ends its event. -/
theorem KeepsUnits.event {work : Work} (hidle : s.start.running = false → ¬c) (hu : UnitsReady s → UnitsReady u) :
    KeepsUnits (.next (if c then finish s work u else s)) :=
  .guarded h fun hc => (hu (h.ready (Bool.eq_true_of_not_eq_false fun hrun => hidle hrun hc))).finish s work

/-- A command of a running station whose change touches no unit's invariant, and ends its event. -/
theorem KeepsUnits.sameEvent {work : Work} (hidle : s.start.running = false → ¬c) (hu : SameUnits s u) :
    KeepsUnits (.next (if c then finish s work u else s)) := .event h hidle hu.ready

end Commands

section Exec

variable {s : State} (h : UnitsSound s)

include h

theorem keepsUnits_lineIdle (bits : List Bool) : KeepsUnits (exec (.lineIdle bits) s) := by
  refine .same h ?_
  split
  · exact sameUnits_setLine s _
  · exact .refl s

theorem keepsUnits_transmitAttemptStart : KeepsUnits (exec .transmitAttemptStart s) := by
  refine .same h ?_
  split
  · exact sameUnits_setLine s _
  · exact .refl s

theorem keepsUnits_lostArbitration (k : Nat) : KeepsUnits (exec (.lostArbitration k) s) := by
  refine .same h ?_
  (repeat' split)
  · exact sameUnits_setLine s _
  · exact .refl s
  · exact .refl s

theorem keepsUnits_bitError (k : Nat) : KeepsUnits (exec (.bitError k) s) := by
  refine .same h ?_
  (repeat' split)
  · exact sameUnits_setLine s _
  · exact .refl s
  · exact .refl s

theorem keepsUnits_abortEnd : KeepsUnits (exec .abortEnd s) := by
  refine .guarded h fun ⟨hrun, _⟩ => ?_
  unfold endAbort
  split_ifs
  · exact (sameUnits_setLine s _).sound h
  · exact (sameUnits_setLine s _).sound h
  · exact (((sameUnits_setLine s _).trans (sameUnits_resetLink _)).ready (h.ready hrun)).finish s .none

theorem keepsUnits_transmissionComplete : KeepsUnits (exec .transmissionComplete s) := by
  have hlink (l : Line) : SameUnits s (completeLink (s.setLine l)) :=
    (sameUnits_setLine s l).trans (sameUnits_completeLink _)
  refine .guarded h fun ⟨hrun, _⟩ => ?_
  split
  · unfold completeTransmission
    dsimp only
    split
    · exact ((hlink _).ready (h.ready hrun)).finish s .none
    · exact (hlink _).sound h
  · exact h

theorem keepsUnits_timebaseLost : KeepsUnits (exec .timebaseLost s) := by
  refine ⟨_, rfl, ?_⟩
  split_ifs with hlost hrun
  · exact (sameUnits_setView s _).sound h
  · have hheld := ((sameUnits_setLine s (holdLine s.line)).ready (h.ready hrun)).sameBay (t := spoilPassage s.traffic) ⟨rfl, rfl⟩
    exact ((sameUnits_addCause _ _).ready ((sameUnits_setView _ _).ready hheld)).finish s .none
  · exact ((sameUnits_setView s _).trans (sameUnits_setView _ _)).sound h

theorem keepsUnits_timebaseRecovered : KeepsUnits (exec .timebaseRecovered s) := by
  refine .guarded h fun _ => ?_
  split
  · rename_i hrun
    have hreleased := (sameUnits_setLine s (releaseLine s.line)).trans
      (sameUnits_setView _ { s.view with timebaseLost := false })
    exact ((hreleased.trans (sameUnits_removeCause _ _)).ready (h.ready hrun)).finish s .none
  · exact (sameUnits_setView s _).sound h

theorem keepsUnits_shiftInputChange (pressed : Bool) (event : InputEvent) :
    KeepsUnits (exec (.shiftInputChange pressed event) s) := by
  refine .guarded h fun hadmits => ?_
  have hrun : s.start.running = true := (Bool.and_eq_true_iff.mp hadmits).1
  have hinput (f : Debounced → Debounced) : SameUnits s (onShiftInput f s) := sameUnits_setShift s _
  cases event with
  | raw => exact (hinput _).sound h
  | stable =>
    dsimp only
    split
    · exact ((hinput _).ready (h.ready hrun)).press.finish s .none
    · exact (hinput _).sound h

theorem keepsUnits_manualAsserted (event : InputEvent) : KeepsUnits (exec (.manualAsserted event) s) := by
  refine .guarded h fun hadmits => ?_
  have hrun : s.start.running = true := (Bool.and_eq_true_iff.mp hadmits).1
  cases event with
  | raw => exact (sameUnits_onManual s _).sound h
  | stable =>
    refine UnitsReady.finish (UnitsReady.onStackOf ?_ .light fun _ hstack => ?_) s .none
    · exact (sameUnits_onManual s _).ready (h.ready hrun)
    · exact hstack.offerEntry (by decide)

theorem keepsUnits_manualReleased (event : InputEvent) : KeepsUnits (exec (.manualReleased event) s) := by
  refine .guarded h fun hadmits => ?_
  have hrun : s.start.running = true := (Bool.and_eq_true_iff.mp hadmits).1
  cases event with
  | raw => exact (sameUnits_onManual s _).sound h
  | stable =>
    refine UnitsReady.finish (UnitsReady.onStackOf ?_ .light fun _ hstack => ?_) s .none
    · exact (sameUnits_onManual s _).ready (h.ready hrun)
    · exact hstack.withoutIdentity _ _

theorem keepsUnits_doorContactChange (d : Fin 8) (isOpen : Bool) (event : InputEvent) :
    KeepsUnits (exec (.doorContactChange d isOpen event) s) := by
  refine .guarded h fun hadmits => ?_
  have hrun : s.start.running = true := (Bool.and_eq_true_iff.mp hadmits).1
  cases event with
  | raw => exact h.onDoor d fun _ => rfl
  | stable => exact ((h.ready hrun).onDoor d _).finish s .none

theorem keepsUnits_doorTrailerChange (d : Fin 8) (isPresent : Bool) (event : InputEvent) :
    KeepsUnits (exec (.doorTrailerChange d isPresent event) s) := by
  refine .guarded h fun hadmits => ?_
  have hrun : s.start.running = true := (Bool.and_eq_true_iff.mp hadmits).1
  cases event with
  | raw => exact h.onDoor d fun _ => rfl
  | stable => exact ((h.ready hrun).onDoor d _).finish s .none

/-- The open seconds advance, and the door stays in its state (R103). -/
theorem keepsUnits_openSecondsAdvance (d : Fin 8) : KeepsUnits (exec (.openSecondsAdvance d) s) := by
  refine .guarded h fun _ => h.onDoor d fun r => ?_
  unfold advanceOpenSecond
  split <;> rfl

theorem keepsUnits_restart (sender : Station) (p : Vector Byte 9) : KeepsUnits (exec (.restart sender p) s) := by
  refine ⟨_, rfl, ?_⟩
  split_ifs
  · exact h.takeFrame _ _ _ fun _ hu _ _ => hu.beginRestart
  · exact h.passFrame _ _ _
  · exact h

/-- Every command keeps the units sound. -/
theorem exec_keepsUnits (c : Instr) : KeepsUnits (exec c s) := by
  cases c
  case powerOnReset => exact ⟨_, rfl, unitsSound_powerOn s⟩
  case startSequenceEnd r =>
    refine ⟨_, rfl, ?_⟩
    split
    · exact h
    · exact (unitsReady_startedBlocks r s).finish _ .recompute
  case lineIdle bits => exact keepsUnits_lineIdle h bits
  case startDelimiter => exact .same h (sameUnits_setLine s _)
  case frameDiscarded bits => exact .same h (sameUnits_setLine s _)
  case transmitAttemptStart => exact keepsUnits_transmitAttemptStart h
  case lostArbitration k => exact keepsUnits_lostArbitration h k
  case bitError k => exact keepsUnits_bitError h k
  case abortEnd => exact keepsUnits_abortEnd h
  case transmissionComplete => exact keepsUnits_transmissionComplete h
  case beaconReceived st p => exact ⟨_, rfl, h.beaconFrame st p⟩
  case handoffReceived st p => exact ⟨_, rfl, h.frameEvent _ _ _ fun _ hu => hu.deliverHandoff st p⟩
  case shiftReceived st p => exact ⟨_, rfl, h.frameEvent _ _ _ fun _ hu => hu.deliverShift p⟩
  case alarmReceived st p => exact ⟨_, rfl, h.frameEvent _ _ _ fun _ hu => hu.deliverAlarm st p⟩
  case replyReceived st p => exact ⟨_, rfl, h.passFrame _ _ _⟩
  case lightSet st p | heatHold st p | heatSetpoint st p | heatBoost st p | ventPurge st p | ventStop st p =>
    exact ⟨_, rfl, h.takeDirective _ _ _ fun _ hu => hu.placeEntry _ _ st p⟩
  case release st p => exact ⟨_, rfl, h.takeDirective _ _ _ fun _ hu => hu.releaseEntries st p⟩
  case alarmAck st p => exact ⟨_, rfl, h.takeDirective _ _ _ fun _ hu => hu.acknowledgeAlarms⟩
  case restart st p => exact keepsUnits_restart h st p
  case queryStatus | queryPeer | queryShift | queryDoor | queryOverrides | queryLoads => exact ⟨_, rfl, h.takeQuery _ _ _⟩
  case directiveDropped st p =>
    refine ⟨_, rfl, ?_⟩
    split
    · exact h
    · exact h.passFrame _ _ _
  case queryDropped st p =>
    refine ⟨_, rfl, ?_⟩
    split
    · exact h
    · exact h.passFrame _ _ _
  case beaconScheduling =>
    exact .sameEvent h (fun hrun => by simp [beaconDue, hrun]) ((sameUnits_scheduleBeacon s).trans (sameUnits_balance _))
  case entryStale n => exact .sameEvent h (fun hrun => by simp [staleDue, hrun]) (sameUnits_onEntry s _ _)
  case entryLost n =>
    exact .event h (fun hrun => by simp [lostDue, hrun]) fun hready => ((sameUnits_onEntry s _ _).ready hready).lowerLost _
  case listenTimerExpiry => exact .sameEvent h (fun hrun => by simp [listenDue, hrun]) (sameUnits_endListen s)
  case isolationTimerExpiry => exact .sameEvent h (fun hrun => by simp [isolationDue, hrun]) (sameUnits_setView s _)
  case timebaseLost => exact keepsUnits_timebaseLost h
  case timebaseRecovered => exact keepsUnits_timebaseRecovered h
  case shiftInputChange pressed event => exact keepsUnits_shiftInputChange h pressed event
  case changeoverTimerExpiry => exact .sameEvent h (fun hrun => by simp [changeoverDue, hrun]) (sameUnits_setShift s _)
  case lockoutTimerExpiry => exact .same h (sameUnits_setShift s _)
  case gateBeamChange beam => exact .event h (fun hrun => by simp [gateSampled, hrun]) (·.beamChange beam)
  case invalidTransition =>
    exact .event h (fun hrun => by simp [gateSampled, hrun]) (·.sameBay (sameBay_invalidTransition _ _))
  case gateFaultClear => exact .event h (fun hrun => by simp [gateClearDue, hrun]) (·.sameBay (sameBay_clearGateFault _))
  case presenceAsserted z => exact .event h (fun hrun => by simp [hrun]) (·.onZone z _)
  case presenceReleased z => exact .guarded h fun ⟨_, hset⟩ => h.releaseZone hset
  case zoneHoldExpiry z => exact .event h (fun hrun => by simp [zoneDue, hrun]) (·.onZone z _)
  case vacancyCorrection => exact .event h (fun hrun => by simp [vacancyDue, hrun]) (·.setTraffic rfl (Nat.zero_le 15))
  case leadInTimerExpiry => exact .event h (fun hrun => by simp [leadInDue, hrun]) (·.setLighting rfl rfl)
  case vacatingTimerExpiry => exact .event h (fun hrun => by simp [vacatingDue, hrun]) (·.setLighting rfl rfl)
  case levelRiseStep i => exact .same h ((sameUnits_stepRise s i).trans (sameUnits_measure _))
  case manualAsserted event => exact keepsUnits_manualAsserted h event
  case manualReleased event => exact keepsUnits_manualReleased h event
  case doorContactChange d isOpen event => exact keepsUnits_doorContactChange h d isOpen event
  case doorTrailerChange d isPresent event => exact keepsUnits_doorTrailerChange h d isPresent event
  case doorHoldExpiry d => exact .event h (fun hrun => by simp [doorHoldDue, doorTest, hrun]) (·.onDoor d _)
  case doorFaultClear d => exact .event h (fun hrun => by simp [doorClearDue, doorTest, hrun]) (·.onDoor d _)
  case boostRecoveryExpiry => exact .event h (fun hrun => by simp [boostDue, hrun]) (·.setDoors rfl (absurd rfl))
  case temperatureReading value => exact .event h (fun hrun => by simp [readingDue, hrun]) (·.readTemperature value)
  case stageMinOnExpiry k => exact .sameEvent h (fun hrun => by simp [stageTest, hrun]) (.refl s)
  case stageMinOffExpiry k => exact .sameEvent h (fun hrun => by simp [stageTest, hrun]) (.refl s)
  case gasSample g value => exact .sameEvent h (fun hrun => by simp [sampleDue, hrun]) (sameUnits_sampleGas s g value)
  case coastTimerExpiry n => exact .same h ((sameUnits_onFan s n _).trans (sameUnits_measure _))
  case rampTimerExpiry n => exact .same h ((sameUnits_onFan s n _).trans (sameUnits_measure _))
  case overrideExpiry k source origin =>
    exact .event h (fun hrun => by simp [expiryDue, hrun]) (·.onStackOf k fun _ hstack => hstack.withoutIdentity source origin)
  case pendingIncreaseExpiry => exact .sameEvent h (fun hrun => by simp [pendingDue, hrun]) (sameUnits_setAlloc s _)
  case meterPulse => exact .same h ((sameUnits_takePulse s).trans (sameUnits_measure _))
  case meterCheck => exact .sameEvent h (fun hrun => by simp [checkDue, hrun]) (sameUnits_setAlloc s _)
  case doorSettlingEnds d isOpen isPresent =>
    exact .event h (fun hrun => by simp [settlingDue, doorTest, hrun]) (·.onDoor d _)
  case openSecondsAdvance d => exact keepsUnits_openSecondsAdvance h d

end Exec

/-- Settles O57: neither a millisecond nor the command's leaving the pending queue touches the units, and every command keeps them
sound (`exec_keepsUnits`). -/
theorem unitInvariantsKept : Obligations.UnitInvariantsKept := by
  intro s t hconfig hshape hstacks htraffic hdoors hheat halarms hstep
  have h : UnitsSound s := ⟨hconfig, hshape, hstacks, htraffic, hdoors, hheat, halarms⟩
  suffices ht : UnitsSound t from ⟨ht.config, ht.shape, ht.overrides, ht.traffic, ht.doors, ht.heat, ht.alarms⟩
  unfold step at hstep
  split at hstep
  · cases hstep
    have htick : SameUnits s (tick s) := ⟨rfl, rfl, rfl, rfl, rfl, rfl, rfl, rfl, rfl, rfl⟩
    exact htick.sound h
  · rename_i c rest _
    have hrest : SameUnits s (s.setPending rest) := ⟨rfl, rfl, rfl, rfl, rfl, rfl, rfl, rfl, rfl, rfl⟩
    obtain ⟨u, hu, hsound⟩ := exec_keepsUnits (hrest.sound h) c
    cases hu.symm.trans hstep
    exact hsound

end Sys2Proof.Machine
end

section
/-! SUPPORT. Proofs of O43: the MANUAL input's two commands, at a changed raw level and at the stable time (R90). -/

namespace Sys2Proof.Machine

/-- The command that reports `level` on the MANUAL input. -/
theorem exec_manual_raw {level : Bool} {s : State} (hrun : s.start.running = true) (hraw : s.lighting.manual.raw ≠ level) :
    exec (if level then .manualAsserted .raw else .manualReleased .raw) s = .next { s with
      lighting := { s.lighting with manual := { s.lighting.manual with raw := level, since := s.clock } } } := by
  have hadmits : manualAdmits .raw level s = true := by simp [manualAdmits, Debounced.admits, hrun, hraw]
  cases level with
  | true => exact congrArg Host.Outcome.next (if_pos hadmits)
  | false => exact congrArg Host.Outcome.next (if_pos hadmits)

/-- A raised level that has held offers the LIGHT stack the MANUAL entry. -/
theorem exec_manualAsserted_stable {s : State} (h : manualAdmits .stable true s = true) : exec (.manualAsserted .stable) s =
    .next (finish s .none (onStackOf .light (offerEntry manualEntry) (onManual (Debounced.take true) s))) :=
  congrArg Host.Outcome.next (if_pos h)

/-- A released level that has held takes the MANUAL entry off the LIGHT stack. -/
theorem exec_manualReleased_stable {s : State} (h : manualAdmits .stable false s = true) : exec (.manualReleased .stable) s =
    .next (finish s .none (onStackOf .light (withoutIdentity .manual none) (onManual (Debounced.take false) s))) :=
  congrArg Host.Outcome.next (if_pos h)

/-- Settles O43: the raw change writes the input's record alone; the debounced one works on the LIGHT stack and ends the event. -/
theorem manualInput : Obligations.ManualInput := by
  intro s level hrun
  refine ⟨exec_manual_raw hrun, fun hraw hheld hlevel => ?_⟩
  have hadmits := (manualAdmits_iff s level).mpr ⟨hrun, hlevel, hraw, hheld⟩
  refine ⟨?_, ?_⟩
  · rintro rfl
    exact ⟨_, exec_manualAsserted_stable hadmits, finish_frame s .none _⟩
  · rintro rfl
    refine ⟨_, exec_manualReleased_stable hadmits, eventFrame_of_eq ?_⟩
    rw [← withoutIdentity_eq]
    rfl

end Sys2Proof.Machine
end

section
/-! SUPPORT. What an event leaves for its end: the grants that the loads hold, the fans, the number of records. The operations that
commands share, one by one (R84, R86, R114, R127, R154). -/

namespace Sys2Proof.Machine

/-! ## The grants held within an event -/

/-- The grant that a channel holds under its output action mode: one that is forced off is granted nothing (R80, R83). -/
def heldGrant (k : ChannelConfig) (c : Channel) : Nat := if k.mode = .offForced then 0 else c.granted

/-- The grants that the channels hold. -/
def channelGrants (s : State) : List Nat := List.zipWith heldGrant s.cfg.lighting.channels s.lighting.channels

/-- `t` follows `s` within an event: the configuration stands, every load holds its grant, and the fans and the allocator are as they
were. -/
structure SameGrants (s t : State) : Prop where
  start : t.start = s.start
  entries : t.view.entries.length = s.view.entries.length
  zones : t.traffic.zones.length = s.traffic.zones.length
  count : t.lighting.channels.length = s.lighting.channels.length
  channels : channelGrants t = channelGrants s
  docks : t.lighting.docks.map DockLight.granted = s.lighting.docks.map DockLight.granted
  curtains : t.doors.records.map Door.curtainGranted = s.doors.records.map Door.curtainGranted
  stages : t.heat.stages.map Stage.granted = s.heat.stages.map Stage.granted
  fan1 : t.air.fan1 = s.air.fan1
  fan2 : t.air.fan2 = s.air.fan2
  alloc : t.alloc = s.alloc

namespace SameGrants

variable {s t u : State}

theorem refl (s : State) : SameGrants s s := ⟨rfl, rfl, rfl, rfl, rfl, rfl, rfl, rfl, rfl, rfl, rfl⟩

theorem trans (h : SameGrants s t) (k : SameGrants t u) : SameGrants s u where
  start := k.start.trans h.start
  entries := k.entries.trans h.entries
  zones := k.zones.trans h.zones
  count := k.count.trans h.count
  channels := k.channels.trans h.channels
  docks := k.docks.trans h.docks
  curtains := k.curtains.trans h.curtains
  stages := k.stages.trans h.stages
  fan1 := k.fan1.trans h.fan1
  fan2 := k.fan2.trans h.fan2
  alloc := k.alloc.trans h.alloc

/-- The loads' blocks stand. -/
theorem of_blocks (start : t.start = s.start) (entries : t.view.entries.length = s.view.entries.length)
    (zones : t.traffic.zones.length = s.traffic.zones.length) (lighting : t.lighting = s.lighting) (doors : t.doors = s.doors)
    (heat : t.heat = s.heat) (air : t.air = s.air) (alloc : t.alloc = s.alloc) : SameGrants s t := by
  refine ⟨start, entries, zones, ?_, ?_, ?_, ?_, ?_, ?_, ?_, alloc⟩ <;>
    simp only [channelGrants, State.cfg, start, lighting, doors, heat, air]

theorem shape (h : SameGrants s t) (hs : ShapeOk s) : ShapeOk t where
  entries := h.entries.trans hs.entries
  zones := h.zones.trans hs.zones
  channels := h.count.trans hs.channels
  pages := by rw [State.cfg, h.start]; exact hs.pages
  channelConfigs := by rw [State.cfg, h.start]; exact hs.channelConfigs
  doorConfigs := by rw [State.cfg, h.start]; exact hs.doorConfigs
  docks := by
    have hcount := congrArg List.length h.docks
    simp only [List.length_map] at hcount
    rw [State.cfg, h.start, hcount]
    exact hs.docks
  doors := by
    have hcount := congrArg List.length h.curtains
    simp only [List.length_map] at hcount
    rw [State.cfg, h.start, hcount]
    exact hs.doors
  stages := by
    have hcount := congrArg List.length h.stages
    simp only [List.length_map] at hcount
    rw [State.cfg, h.start, hcount]
    exact hs.stages

end SameGrants

section Blocks

variable (s : State)

/-! ## One block changed -/

theorem sameGrants_setLine (l : Line) : SameGrants s (s.setLine l) := .of_blocks rfl rfl rfl rfl rfl rfl rfl rfl

theorem sameGrants_setView {v : View} (h : v.entries.length = s.view.entries.length := by rfl) : SameGrants s (s.setView v) :=
  .of_blocks rfl h rfl rfl rfl rfl rfl rfl

theorem sameGrants_setShift (b : Shift) : SameGrants s (s.setShift b) := .of_blocks rfl rfl rfl rfl rfl rfl rfl rfl

theorem sameGrants_setTraffic {t : Traffic} (h : t.zones.length = s.traffic.zones.length := by rfl) :
    SameGrants s (s.setTraffic t) := .of_blocks rfl rfl h rfl rfl rfl rfl rfl

theorem sameGrants_setOverrides (o : Overrides) : SameGrants s (s.setOverrides o) := .of_blocks rfl rfl rfl rfl rfl rfl rfl rfl

theorem sameGrants_setAlarms (a : Alarms) : SameGrants s (s.setAlarms a) := .of_blocks rfl rfl rfl rfl rfl rfl rfl rfl

/-- A change of the lighting unit's bay state, timers or MANUAL input. -/
theorem sameGrants_setLighting {l : Lighting} (hchannels : l.channels = s.lighting.channels)
    (hdocks : l.docks = s.lighting.docks) : SameGrants s (s.setLighting l) := by
  refine ⟨rfl, rfl, rfl, congrArg _ hchannels, ?_, congrArg _ hdocks, rfl, rfl, rfl, rfl, rfl⟩
  simp [channelGrants, hchannels]

theorem sameGrants_setDoors {d : Doors}
    (h : d.records.map Door.curtainGranted = s.doors.records.map Door.curtainGranted := by rfl) : SameGrants s (s.setDoors d) :=
  ⟨rfl, rfl, rfl, rfl, rfl, rfl, h, rfl, rfl, rfl, rfl⟩

theorem sameGrants_setHeat {b : Heat} (h : b.stages.map Stage.granted = s.heat.stages.map Stage.granted := by rfl) :
    SameGrants s (s.setHeat b) := ⟨rfl, rfl, rfl, rfl, rfl, rfl, rfl, h, rfl, rfl, rfl⟩

theorem sameGrants_setAir {a : Air} (h1 : a.fan1 = s.air.fan1 := by rfl) (h2 : a.fan2 = s.air.fan2 := by rfl) :
    SameGrants s (s.setAir a) := ⟨rfl, rfl, rfl, rfl, rfl, rfl, rfl, rfl, h1, h2, rfl⟩

/-! ## The transmit queue, the peer view and the link state -/

theorem sameGrants_offer (b : Bulletin) : SameGrants s (offer b s) := by
  apply SameGrants.of_blocks <;> simp

theorem sameGrants_onEntry (n : Nat) (f : PeerEntry → PeerEntry) : SameGrants s (onEntry n f s) :=
  sameGrants_setView s (updateAt_length _ _ _)

theorem sameGrants_heard (kind : Nat) (sender : Station) (payload : List Byte) : SameGrants s (heard kind sender payload s) := by
  have h := heard_frame kind sender payload s
  exact .of_blocks h.start (congrArg _ (heard_entries _ _ _ _)) (by rw [h.traffic]) h.lighting h.doors h.heat h.air h.alloc

theorem sameGrants_addCause (cause : SilentCause) : SameGrants s (addCause cause s) := by
  unfold addCause
  dsimp only
  split
  · exact sameGrants_setView s
  · exact (sameGrants_setView s).trans ((sameGrants_setView _).trans (sameGrants_setLine _ _))

theorem sameGrants_removeCause (cause : SilentCause) : SameGrants s (removeCause cause s) := by
  unfold removeCause
  dsimp only
  split
  · exact (sameGrants_setView s).trans (sameGrants_setView _)
  · exact sameGrants_setView s

theorem sameGrants_resetLink : SameGrants s (resetLink s) := by
  unfold resetLink
  split
  · exact sameGrants_setView s
  · exact sameGrants_setView s
  · exact .refl s
  · exact .refl s

theorem sameGrants_completeLink : SameGrants s (completeLink s) := by
  unfold completeLink
  split
  · exact sameGrants_setView s
  · exact .refl s

theorem sameGrants_endListen : SameGrants s (endListen s) := by
  unfold endListen
  split
  · exact sameGrants_setView s
  · exact sameGrants_setView s

theorem sameGrants_scheduleBeacon : SameGrants s (scheduleBeacon s) := by
  unfold scheduleBeacon
  dsimp only
  split
  · exact sameGrants_setView s
  · exact (sameGrants_setView s).trans ((sameGrants_setView _).trans (sameGrants_offer _ _))

/-! ## The traffic unit -/

theorem sameGrants_sameBay {t : Traffic} (h : SameBay s.traffic t) : SameGrants s (s.setTraffic t) :=
  sameGrants_setTraffic s (congrArg _ h.zones)

theorem sameGrants_onZone (z : Fin 4) (f : Zone → Zone) : SameGrants s (onZone z f s) :=
  sameGrants_setTraffic s (updateAt_length _ _ _)

theorem sameGrants_lowerLost (n : Nat) : SameGrants s (lowerLost n s) := by
  unfold lowerLost
  split
  · exact sameGrants_setTraffic s
  · exact .refl s

theorem sameGrants_takeCrossing (dir : Travel) : SameGrants s (takeCrossing dir s) :=
  ((sameGrants_setTraffic s).trans (sameGrants_setShift _ _)).trans
    ((sameGrants_offer _ _).trans (sameGrants_setTraffic _ (congrArg _ (changeCount_zones _ _))))

theorem sameGrants_endPassage : SameGrants s (endPassage s) := by
  unfold endPassage
  dsimp only
  split
  · exact (sameGrants_takeCrossing s _).trans (sameGrants_setTraffic _)
  · exact sameGrants_setTraffic s

theorem sameGrants_beamChange (beam : Beam) : SameGrants s (beamChange beam s) := by
  have htoggled := sameBay_toggleBeam beam s.traffic
  unfold beamChange
  dsimp only
  split_ifs
  · refine (sameGrants_sameBay s (htoggled.trans ?_)).trans (sameGrants_endPassage _)
    exact ⟨rfl, rfl⟩
  · exact sameGrants_sameBay s (htoggled.trans ⟨rfl, rfl⟩)
  · exact sameGrants_sameBay s (htoggled.trans (sameBay_beginTracking _))
  · exact sameGrants_sameBay s htoggled

/-! ## The door unit and the air unit -/

theorem sameGrants_onDoor (d : Fin 8) {f : Door → Door} (h : ∀ r, (f r).curtainGranted = r.curtainGranted) :
    SameGrants s (onDoor d f s) := sameGrants_setDoors s (updateAt_map _ _ _ _ fun r _ => h r)

theorem sameGrants_sampleGas (g : Gas) (value : Option Nat) : SameGrants s (sampleGas g value s) := by
  cases g with
  | co => exact sameGrants_setAir s
  | no2 => exact sameGrants_setAir s

theorem sameGrants_balance : SameGrants s (balance s) := by
  unfold balance
  split
  · exact sameGrants_setAir s
  · exact .refl s

/-! ## The heat unit -/

theorem judgeCallsFrom_grants (c : HeatConfig) (fault : Bool) (last : Option Int) (effective : Int) (k : Nat) (sts : List Stage) :
    (judgeCallsFrom c fault last effective k sts).map Stage.granted = sts.map Stage.granted := by
  induction sts generalizing k with
  | nil => rfl
  | cons st sts ih => simp [judgeCallsFrom, ih]

theorem switchStages_grants (now : Nat) (cs : List StageConfig) (sts : List Stage) :
    (switchStages now cs sts).map Stage.granted = sts.map Stage.granted := by
  induction cs generalizing sts with
  | nil => rfl
  | cons c cs ih =>
    cases sts with
    | nil => rfl
    | cons st sts =>
      have hst : (switchStage now c st).granted = st.granted := by
        unfold switchStage
        (repeat' split) <;> rfl
      simp [switchStages, ih, hst]

/-- Within an event every stage keeps its grant, whatever its demand becomes (R114). -/
theorem keepGrant_grants (formed was : List Stage) (h : formed.length = was.length) :
    (alongside keepGrant formed was).map Stage.granted = was.map Stage.granted := by
  induction formed generalizing was with
  | nil => rw [List.eq_nil_of_length_eq_zero h.symm]; rfl
  | cons x xs ih =>
    cases was with
    | nil => simp at h
    | cons y ys => simp [alongside, keepGrant, ih ys (by simpa using h)]

theorem sameGrants_reformStages : SameGrants s (reformStages s) :=
  sameGrants_setHeat s (keepGrant_grants _ _ (formStages_length _ _ _ _ _ _ _))

theorem sameGrants_reformHeat : SameGrants s (reformHeat s) :=
  (sameGrants_setHeat s (judgeCallsFrom_grants _ _ _ _ _ _)).trans (sameGrants_reformStages _)

theorem sameGrants_driveStages : SameGrants s (driveStages s) := sameGrants_setHeat s (switchStages_grants _ _ _)

theorem sameGrants_stageReading : SameGrants s (stageReading s) := by
  have hjudged : SameGrants s (s.setHeat (judgeCalls s.cfg.heat s.heat)) :=
    sameGrants_setHeat s (judgeCallsFrom_grants _ _ _ _ _ _)
  unfold stageReading
  exact (hjudged.trans (sameGrants_reformStages _)).trans ((sameGrants_driveStages _).trans (sameGrants_reformStages _))

theorem sameGrants_readTemperature (value : Option Int) : SameGrants s (readTemperature value s) := by
  have htaken : SameGrants s
      (s.setHeat { takeReading s.cfg.heat value s.heat with nextReading := s.heat.nextReading + 1000 }) :=
    sameGrants_setHeat s (congrArg (List.map Stage.granted) (takeReading_stages s.cfg.heat value s.heat))
  exact htaken.trans (sameGrants_stageReading _)

/-! ## The lighting unit -/

/-- A channel without a record is one that is forced off (R80, R83). -/
theorem channelChoice_tier (mode : ChannelMode) (page : Page) (bay : BayState) (stack : List OverrideEntry) (i : Nat) :
    (channelChoice mode page bay stack i).2 = none ↔ mode = .offForced := by
  cases mode <;> simp [channelChoice]

/-- Whatever a channel chooses, its mode decides whether it holds its grant. -/
theorem heldGrant_chooseChannel (k : ChannelConfig) (page : Page) (bay : BayState) (stack : List OverrideEntry) (i : Nat)
    (c : Channel) : heldGrant k (chooseChannel (channelChoice k.mode page bay stack i) c) = heldGrant k c := by
  unfold heldGrant
  split
  · rfl
  · rename_i hmode
    exact if_neg (mt (channelChoice_tier k.mode page bay stack i).mp hmode)

theorem heldGrants_chooseChannels (page : Page) (bay : BayState) (stack : List OverrideEntry) (i : Nat) (ks : List ChannelConfig)
    (cs : List Channel) :
    List.zipWith heldGrant ks (chooseChannels page bay stack i ks cs) = List.zipWith heldGrant ks cs := by
  induction ks generalizing i cs with
  | nil => rfl
  | cons k ks ih =>
    cases cs with
    | nil => rfl
    | cons c cs => simp only [chooseChannels, List.zipWith_cons_cons, heldGrant_chooseChannel, ih]

theorem trackChannel_granted (now : Nat) (c : Channel) : (trackChannel now c).granted = c.granted := by
  unfold trackChannel
  dsimp only
  split <;> rfl

theorem sameGrants_reformChannels : SameGrants s (reformChannels s) := by
  refine ⟨rfl, rfl, rfl, reformChannels_count s, ?_, rfl, rfl, rfl, rfl, rfl, rfl⟩
  have htrack (k : ChannelConfig) (c : Channel) : heldGrant k (trackChannel s.clock c) = heldGrant k c := by
    unfold heldGrant
    rw [trackChannel_granted]
  have h := heldGrants_chooseChannels (currentPage s) s.lighting.bay s.overrides.light 0 s.cfg.lighting.channels
    s.lighting.channels
  simpa [channelGrants, reformChannels, settleChannels, List.zipWith_map_right, htrack] using h

end Blocks

end Sys2Proof.Machine
end

section
/-! SUPPORT. The grants held within an event, command by command: the doors' inputs and timers, the shift tracker, the override stacks
and the deliveries (R50, R51, R66, R93 to R99, R140, R147). -/

namespace Sys2Proof.Machine

/-! ## The doors' functions -/

section Doors

variable (now limit : Nat) (d : Door)

@[simp] theorem enterDoorState_granted (st : DoorState) : (enterDoorState now limit st d).curtainGranted = d.curtainGranted := by
  unfold enterDoorState gatherOpen
  dsimp only
  (repeat' split) <;> rfl

@[simp] theorem settleDoor_granted : (settleDoor now limit d).curtainGranted = d.curtainGranted := by
  unfold settleDoor
  split
  · exact enterDoorState_granted now limit d _
  · rfl

/-- A debounced change leaves the curtain its grant where the change of state it brings does (R93 to R95, R98). -/
theorem debouncedChange_granted {act : Door → Door} (hact : ∀ r, (act r).curtainGranted = r.curtainGranted) :
    (debouncedChange now limit act d).curtainGranted = d.curtainGranted := by
  unfold debouncedChange
  dsimp only
  split_ifs
  · exact settleDoor_granted _ _ _
  · rfl
  · exact enterDoorState_granted now 0 _ .fault
  · exact hact _

@[simp] theorem contactChange_granted (isOpen : Bool) : (contactChange now limit isOpen d).curtainGranted = d.curtainGranted := by
  refine (debouncedChange_granted now limit _ fun r => ?_).trans rfl
  unfold contactAct
  split_ifs
  · exact enterDoorState_granted now limit r _
  · rfl
  · exact enterDoorState_granted now limit r _
  · rfl

@[simp] theorem trailerChange_granted (isPresent : Bool) :
    (trailerChange now limit isPresent d).curtainGranted = d.curtainGranted := by
  refine (debouncedChange_granted now limit _ fun r => ?_).trans rfl
  unfold trailerAct
  split_ifs
  · exact enterDoorState_granted _ _ _ _
  · rfl
  · exact enterDoorState_granted _ _ _ _
  · rfl

@[simp] theorem contactFirst_granted (isOpen : Bool) : (contactFirst now limit isOpen d).curtainGranted = d.curtainGranted := by
  unfold contactFirst
  dsimp only
  split <;> simp

@[simp] theorem trailerFirst_granted (isPresent : Bool) :
    (trailerFirst now limit isPresent d).curtainGranted = d.curtainGranted := by
  unfold trailerFirst
  dsimp only
  split <;> simp

@[simp] theorem settlingEnds_granted (isOpen isPresent : Bool) :
    (settlingEnds now limit isOpen isPresent d).curtainGranted = d.curtainGranted := settleDoor_granted _ _ _

@[simp] theorem clearDoorFault_granted : (clearDoorFault now limit d).curtainGranted = d.curtainGranted :=
  enterDoorState_granted now limit d _

end Doors

section Operations

variable (s : State)

/-! ## The override stacks -/

theorem sameGrants_onStackOf (k : StackId) (f : List OverrideEntry → List OverrideEntry) : SameGrants s (onStackOf k f s) :=
  sameGrants_setOverrides s _

theorem sameGrants_placeEntry (kind : DirectiveKind) (k : StackId) (sender : Station) (p : Vector Byte 9) :
    SameGrants s (placeEntry kind k sender p s) := by
  unfold placeEntry
  split
  · exact sameGrants_onStackOf s _ _
  · exact .refl s

/-! ## The shift tracker -/

theorem sameGrants_changePage (p : Fin 4) : SameGrants s (changePage p s) := by
  have hpage : SameGrants s (withPage p s) := by
    refine (sameGrants_setShift s { s.shift with page := p }).trans (sameGrants_setLighting _ (l := (withPage p s).lighting) ?_ ?_)
    · unfold withPage
      dsimp only
      split <;> rfl
    · unfold withPage
      dsimp only
      split <;> rfl
  by_cases h : p = s.shift.page
  · rw [changePage, if_pos h]
    exact .refl s
  · rw [changePage_of_ne h]
    exact hpage.trans ((sameGrants_reformChannels _).trans (sameGrants_reformHeat _))

theorem sameGrants_startChangeover : SameGrants s (startChangeover s) := by
  rw [startChangeover_eq]
  exact .of_blocks rfl rfl rfl rfl rfl rfl rfl rfl

theorem sameGrants_rollAccumulators : SameGrants s (rollAccumulators s) := by
  refine (sameGrants_setShift s _).trans (sameGrants_setDoors _ ?_)
  rw [List.map_map]
  rfl

theorem sameGrants_adopt (e : Byte) (p : Fin 4) : SameGrants s (adopt e p s) :=
  ((((sameGrants_rollAccumulators s).trans (sameGrants_setShift _ _)).trans (sameGrants_changePage _ p)).trans
    (sameGrants_startChangeover _)).trans (sameGrants_setShift _ _)

theorem sameGrants_settleLowerPage (p : Fin 4) : SameGrants s (settleLowerPage p s) := by
  unfold settleLowerPage
  dsimp only
  split
  · exact (sameGrants_changePage s p).trans (sameGrants_setOverrides _ _)
  · exact sameGrants_changePage s p

theorem sameGrants_adoptionTest (e : Byte) (p : Fin 4) : SameGrants s (adoptionTest e p s) := by
  unfold adoptionTest
  split
  · exact sameGrants_adopt s e p
  · split_ifs
    · exact sameGrants_adopt s e p
    · exact sameGrants_settleLowerPage s p
    · exact .refl s

theorem sameGrants_press : SameGrants s (press s) := by
  unfold press
  split
  · exact (sameGrants_adopt s _ _).trans (sameGrants_offer _ _)
  · exact .refl s

/-! ## Deliveries -/

theorem sameGrants_deliverBeacon (sender : Station) (p : Vector Byte 24) : SameGrants s (deliverBeacon sender p s) := by
  have hshift (u : State) : SameGrants u (beaconShift (beaconOf p) u) := by
    unfold beaconShift
    split
    · exact sameGrants_adoptionTest u _ _
    · exact .refl u
  have hgate (u : State) : SameGrants u (beaconGate sender (beaconOf p) u) := by
    unfold beaconGate
    split
    · exact sameGrants_setTraffic u
    · exact .refl u
  unfold deliverBeacon
  split
  · exact (sameGrants_onEntry s _ _).trans ((hshift _).trans (hgate _))
  · exact .refl s

theorem sameGrants_deliverHandoff (sender : Station) (p : Vector Byte 4) : SameGrants s (deliverHandoff sender p s) := by
  have hcount (fields : Handoff) : SameGrants s (handoffCount sender fields s) := by
    unfold handoffCount
    split
    · exact sameGrants_setTraffic s (congrArg List.length (changeCount_zones _ _))
    · exact .refl s
  have hlead (fields : Handoff) (u : State) : SameGrants u (handoffLeadIn sender fields u) := by
    unfold handoffLeadIn leadInTrigger
    split_ifs
    · exact .refl u
    · exact sameGrants_setLighting u rfl rfl
    · exact .refl u
  unfold deliverHandoff
  split
  · exact (hcount _).trans (hlead _ _)
  · exact .refl s

theorem sameGrants_deliverShift (p : Vector Byte 2) : SameGrants s (deliverShift p s) := by
  unfold deliverShift
  split
  · exact sameGrants_adoptionTest s _ _
  · exact .refl s

theorem sameGrants_deliverAlarm (sender : Station) (p : Vector Byte 4) : SameGrants s (deliverAlarm sender p s) := by
  unfold deliverAlarm
  split
  · exact sameGrants_onEntry s _ _
  · exact .refl s

end Operations

end Sys2Proof.Machine
end

section
/-! SUPPORT. What a command that ends no event leaves of the demands, the grants and the outputs: an input sampled, a frame that brings
nothing, a step of a light or a fan, a meter pulse (R85, R93, R129, R130, R169). -/

namespace Sys2Proof.Machine

/-- The allocator's fields that a local realisation and a recomputation work with: requests, grants, settle delay and term. -/
def Alloc.settlement (a : Alloc) : Requests × Grants × Grants × Option Nat × Nat :=
  (a.requests, a.computed, a.applied, a.pendingDue, a.term)

/-- `t` follows `s` without an end of event: every demand stands with what it depends on, every load keeps its record and its grant,
and no output rises above what was granted to it. -/
structure Stands (s t : State) : Prop where
  demands : demandView t = { demandView s with view := t.view, traffic := t.traffic }
  entries : t.view.entries = s.view.entries
  link : t.view.link = s.view.link
  occupied : occupied t.traffic = occupied s.traffic
  heat : t.heat = s.heat
  loads : (loadList t).map Load.still = (loadList s).map Load.still
  alloc : t.alloc.settlement = s.alloc.settlement
  outputs : OutputsOk s → OutputsOk t

/-- What a load is granted and asks for is in the records of its block. -/
theorem loadList_still {s t : State} (start : t.start = s.start)
    (channels : t.lighting.channels.map (fun c => (c.desired, c.tier, c.granted)) =
      s.lighting.channels.map fun c => (c.desired, c.tier, c.granted))
    (docks : t.lighting.docks = s.lighting.docks)
    (records : t.doors.records.map (fun d => (d.curtainDemanded, d.curtainGranted)) =
      s.doors.records.map fun d => (d.curtainDemanded, d.curtainGranted))
    (stages : t.heat.stages = s.heat.stages)
    (fan1 : (t.air.fan1.desired, t.air.fan1.tier, t.air.fan1.granted) = (s.air.fan1.desired, s.air.fan1.tier, s.air.fan1.granted))
    (fan2 : (t.air.fan2.desired, t.air.fan2.tier, t.air.fan2.granted) = (s.air.fan2.desired, s.air.fan2.tier, s.air.fan2.granted)) :
    (loadList t).map Load.still = (loadList s).map Load.still := by
  have hchannels (u : State) := map_zipWith_factor channelLoad Load.still (fun c : Channel => (c.desired, c.tier, c.granted))
    (fun k p => { fitting := .dimmable, rated := k.rated, demand := p.2.1.map fun tier => { setting := p.1, tier := tier }
                  granted := p.2.2, present := 0 }) (fun _ _ => rfl) u.cfg.lighting.channels u.lighting.channels
  have hcurtains (u : State) := map_zipWith_factor curtainLoad Load.still (fun d : Door => (d.curtainDemanded, d.curtainGranted))
    (fun rated p => { fitting := .whole, rated := rated, demand := if p.1 then some { setting := 1, tier := 1 } else none
                      granted := p.2.toNat, present := 0 }) (fun _ _ => rfl) u.cfg.doors.curtains u.doors.records
  simp only [Prod.mk.injEq] at fan1 fan2
  unfold loadList
  simp only [List.map_append]
  rw [hchannels t, hchannels s, hcurtains t, hcurtains s, channels, records, docks, stages]
  simp [Load.still, fanLoad, State.cfg, start, fan1, fan2]

namespace Stands

variable {s t u : State}

/-- Blocks without a load change; of the peer view and the traffic unit the demands read the entries, the link state and occupied. -/
theorem of_blocks (start : t.start = s.start) (entries : t.view.entries = s.view.entries) (link : t.view.link = s.view.link)
    (occupied : Machine.occupied t.traffic = Machine.occupied s.traffic) (page : t.shift.page = s.shift.page)
    (lighting : t.lighting = s.lighting) (doors : t.doors = s.doors) (heat : t.heat = s.heat) (air : t.air = s.air)
    (overrides : t.overrides = s.overrides) (alloc : t.alloc.settlement = s.alloc.settlement) : Stands s t where
  demands := by simp only [demandView, start, page, lighting, doors, heat, air, overrides]
  entries := entries
  link := link
  occupied := occupied
  heat := heat
  loads := by simp only [loadList, State.cfg, start, lighting, doors, heat, air]
  alloc := alloc
  outputs := fun ⟨hchannels, hdocks, hcurtains, hstages, h1, h2⟩ => by
    constructor
    · rw [lighting]; exact hchannels
    · rw [lighting]; exact hdocks
    · rw [doors]; exact hcurtains
    · rw [start, heat]; exact hstages
    · rw [air]; exact h1
    · rw [air]; exact h2

theorem refl (s : State) : Stands s s := .of_blocks rfl rfl rfl rfl rfl rfl rfl rfl rfl rfl rfl

theorem trans (h : Stands s t) (k : Stands t u) : Stands s u where
  demands := by rw [k.demands, h.demands]
  entries := k.entries.trans h.entries
  link := k.link.trans h.link
  occupied := k.occupied.trans h.occupied
  heat := k.heat.trans h.heat
  loads := k.loads.trans h.loads
  alloc := k.alloc.trans h.alloc
  outputs := fun ho => k.outputs (h.outputs ho)

theorem start (h : Stands s t) : t.start = s.start := congrArg DemandView.start h.demands

end Stands

section Changes

variable (s : State)

/-! ## Blocks without a load -/

theorem stands_setPending (b : List Instr) : Stands s (s.setPending b) := .of_blocks rfl rfl rfl rfl rfl rfl rfl rfl rfl rfl rfl

theorem stands_tick : Stands s (tick s) := .of_blocks rfl rfl rfl rfl rfl rfl rfl rfl rfl rfl rfl

theorem stands_setLine (l : Line) : Stands s (s.setLine l) := .of_blocks rfl rfl rfl rfl rfl rfl rfl rfl rfl rfl rfl

theorem stands_setView {v : View} (entries : v.entries = s.view.entries := by rfl) (link : v.link = s.view.link := by rfl) :
    Stands s (s.setView v) := .of_blocks rfl entries link rfl rfl rfl rfl rfl rfl rfl rfl

theorem stands_setShift {b : Shift} (page : b.page = s.shift.page := by rfl) : Stands s (s.setShift b) :=
  .of_blocks rfl rfl rfl rfl page rfl rfl rfl rfl rfl rfl

theorem stands_offer (b : Bulletin) : Stands s (offer b s) := by
  apply Stands.of_blocks <;> simp

theorem stands_heard (kind : Nat) (sender : Station) (payload : List Byte)
    (hlink : (heard kind sender payload s).view.link = s.view.link) : Stands s (heard kind sender payload s) := by
  have h := heard_frame kind sender payload s
  exact .of_blocks h.start (heard_entries _ _ _ _) hlink (by rw [h.traffic]) (by rw [h.shift]) h.lighting h.doors h.heat h.air
    h.overrides (by rw [h.alloc])

theorem stands_completeLink (hlink : (completeLink s).view.link = s.view.link) : Stands s (completeLink s) := by
  unfold completeLink at hlink ⊢
  split
  · rename_i hc
    rw [if_pos hc] at hlink
    exact stands_setView s rfl hlink
  · exact .refl s

/-- A pulse works on the stamps, on M and on the energy accumulator (R169). -/
theorem stands_takePulse : Stands s (takePulse s) := .of_blocks rfl rfl rfl rfl rfl rfl rfl rfl rfl rfl rfl

/-- The draws work on E, P, the peak P accumulator and the net flow alone (R124, R156). -/
theorem stands_measure : Stands s (measure s) := by
  have h := (measure_draws s).rest
  rw [h]
  exact {
    demands := rfl
    entries := rfl
    link := rfl
    occupied := rfl
    heat := rfl
    loads := rfl
    alloc := rfl
    outputs := fun ⟨hchannels, hdocks, hcurtains, hstages, h1, h2⟩ => ⟨hchannels, hdocks, hcurtains, hstages, h1, h2⟩ }

/-! ## Inputs -/

theorem stands_onManual (f : Debounced → Debounced) : Stands s (onManual f s) where
  demands := rfl
  entries := rfl
  link := rfl
  occupied := rfl
  heat := rfl
  loads := rfl
  alloc := rfl
  outputs := fun ⟨hchannels, hdocks, hcurtains, hstages, h1, h2⟩ => ⟨hchannels, hdocks, hcurtains, hstages, h1, h2⟩

/-- The state of a door and its curtain's flags, which a sampled input and the accumulators leave. -/
def Door.curtain (d : Door) : DoorState × Bool × Bool × Bool × Bool :=
  (d.state, d.settling, d.curtainDemanded, d.curtainGranted, d.curtainOn)

theorem stands_onDoor (d : Fin 8) {f : Door → Door} (hf : ∀ r, (f r).curtain = r.curtain) : Stands s (onDoor d f s) := by
  have hmap {γ : Type} (g : DoorState × Bool × Bool × Bool × Bool → γ) :
      (updateAt d.val f s.doors.records).map (fun r => g r.curtain) = s.doors.records.map fun r => g r.curtain :=
    updateAt_map _ _ _ _ fun r _ => congrArg g (hf r)
  refine { demands := ?_, entries := rfl, link := rfl, occupied := rfl, heat := rfl, loads := ?_, alloc := rfl, outputs := ?_ }
  · have h := hmap fun p => (p.1, p.2.1, p.2.2.1)
    simp only [Door.curtain] at h
    simp [demandView, onDoor, h]
  · exact loadList_still rfl rfl rfl (hmap fun p => (p.2.2.1, p.2.2.2.1)) rfl rfl rfl
  · rintro ⟨hchannels, hdocks, hcurtains, hstages, h1, h2⟩
    refine ⟨hchannels, hdocks, fun r hr hon => ?_, hstages, h1, h2⟩
    rcases mem_updateAt hr with hmem | ⟨x, hx, rfl⟩
    · exact hcurtains r hmem hon
    · have hx' := hf x
      simp only [Door.curtain, Prod.mk.injEq] at hx'
      obtain ⟨-, -, hdem, hgr, hout⟩ := hx'
      rw [hdem, hgr]
      exact hcurtains x hx (hout ▸ hon)

theorem advanceOpenSecond_curtain (now : Nat) (d : Door) : (advanceOpenSecond now d).curtain = d.curtain := by
  unfold advanceOpenSecond
  split <;> rfl

/-- A released presence input leaves its zone active, and the bay occupied where it was (R69, R72). -/
theorem stands_releaseZone {z : Fin 4} (hset : (zoneOf z s).asserted = true) :
    Stands s (onZone z (fun _ => { asserted := false, releasedAt := some s.clock }) s) := by
  obtain ⟨x, hx⟩ : ∃ x, s.traffic.zones[z.val]? = some x := by
    cases hz : s.traffic.zones[z.val]? with
    | none => simp [zoneOf, List.getD_eq_getElem?_getD, hz] at hset
    | some x => exact ⟨x, rfl⟩
  rw [zoneOf_of_getElem? hx] at hset
  have hactive (l : List Zone) : l.any Zone.active = (l.map Zone.active).any id := by
    rw [List.any_map]
    rfl
  have hpresent : present { s.traffic with
      zones := updateAt z.val (fun _ => { asserted := false, releasedAt := some s.clock }) s.traffic.zones } =
      present s.traffic := by
    rw [present, hactive, updateAt_map_of_getElem? _ hx (by simp [Zone.active, hset]), ← hactive]
    rfl
  exact .of_blocks rfl rfl rfl (congrArg (decide (0 < s.traffic.count) || ·) hpresent) rfl rfl rfl rfl rfl rfl rfl

/-! ## Lights and fans -/

theorem advanceRise_ok (now fade : Nat) {c : Channel} (h : ChannelOk c) : ChannelOk (advanceRise now fade c) := by
  obtain ⟨htarget, hpresent⟩ := h
  unfold advanceRise
  split
  · refine ⟨htarget, ?_⟩
    exact Nat.max_le.mpr ⟨hpresent, Nat.min_le_left _ _⟩
  · exact ⟨htarget, hpresent⟩

/-- A rising channel takes a level up to its target (R85). -/
theorem stands_stepRise (i : Fin 4) : Stands s (stepRise i s) := by
  have hrecord {γ : Type} (g : Nat × Option Tier × Nat → γ) :
      (updateAt i.val (advanceRise s.clock s.cfg.lighting.fade) s.lighting.channels).map
        (fun c => g (c.desired, c.tier, c.granted)) = s.lighting.channels.map fun c => g (c.desired, c.tier, c.granted) := by
    refine updateAt_map _ _ _ _ fun c _ => ?_
    unfold advanceRise
    split <;> rfl
  refine { demands := ?_, entries := rfl, link := rfl, occupied := rfl, heat := rfl, loads := ?_, alloc := rfl, outputs := ?_ }
  · have h := hrecord fun p => (p.1, p.2.1)
    simp only at h
    simp only [demandView, stepRise, State.setLighting_lighting, h]
    rfl
  · exact loadList_still rfl (hrecord id) rfl rfl rfl rfl rfl
  · rintro ⟨hchannels, hdocks, hcurtains, hstages, h1, h2⟩
    refine ⟨fun c hc => ?_, hdocks, hcurtains, hstages, h1, h2⟩
    rcases mem_updateAt hc with hmem | ⟨x, hx, rfl⟩
    · exact hchannels c hmem
    · exact advanceRise_ok _ _ (hchannels x hx)

/-- A fan's record and grant, which its own timers leave. -/
def Fan.record (f : Fan) : FanSource × AirDir × Nat × Option Tier × Nat := (f.source, f.requested, f.desired, f.tier, f.granted)

/-- A fan that moves by its own timer keeps its record, and its speed within its target (R129, R130). -/
theorem stands_onFan (n : Fin 2) {f : FanConfig → Fan → Fan} (hrecord : ∀ k x, (f k x).record = x.record)
    (hok : ∀ k, FanOk (fanOfNumber n s.air) → FanOk (f k (fanOfNumber n s.air))) : Stands s (onFan n f s) := by
  have hpart {γ : Type} (g : FanSource × AirDir × Nat × Option Tier × Nat → γ) (k : FanConfig) (x : Fan) :
      g (f k x).record = g x.record := congrArg g (hrecord k x)
  have hdemand := hpart fun p => (p.1, p.2.1, p.2.2.1, p.2.2.2.1)
  have hload := hpart fun p => (p.2.2.1, p.2.2.2.1, p.2.2.2.2)
  simp only [Fan.record] at hdemand
  unfold onFan
  unfold fanOfNumber at hok
  split
  · rename_i hn
    rw [if_pos hn] at hok
    refine { demands := ?_, entries := rfl, link := rfl, occupied := rfl, heat := rfl, loads := ?_, alloc := rfl, outputs := ?_ }
    · simp only [demandView, State.setAir_air, hdemand]
      rfl
    · exact loadList_still rfl rfl rfl rfl rfl (hload _ _) rfl
    · exact fun ⟨hchannels, hdocks, hcurtains, hstages, h1, h2⟩ => ⟨hchannels, hdocks, hcurtains, hstages, hok _ h1, h2⟩
  · rename_i hn
    rw [if_neg hn] at hok
    refine { demands := ?_, entries := rfl, link := rfl, occupied := rfl, heat := rfl, loads := ?_, alloc := rfl, outputs := ?_ }
    · simp only [demandView, State.setAir_air, hdemand]
      rfl
    · exact loadList_still rfl rfl rfl rfl rfl rfl (hload _ _)
    · exact fun ⟨hchannels, hdocks, hcurtains, hstages, h1, h2⟩ => ⟨hchannels, hdocks, hcurtains, hstages, h1, hok _ h2⟩

/-- A COASTING fan starts one step high or stops (R129). -/
theorem stands_coastExpires {n : Fin 2} (h : (fanOfNumber n s.air).state = .coasting) :
    Stands s (onFan n (coastExpires s.clock) s) := by
  refine stands_onFan s n (fun k x => ?_) fun k hok => ?_
  · unfold coastExpires
    split <;> rfl
  · obtain ⟨htarget, hpresent, hidle⟩ := hok
    unfold coastExpires
    split
    · exact ⟨htarget, Nat.min_le_left _ _, fun hne => absurd rfl hne⟩
    · exact ⟨htarget, hpresent, fun _ => hidle (by simp [h])⟩

/-- A RUNNING fan goes up a step, its target at most (R130). -/
theorem stands_rampExpires {n : Fin 2} (h : (fanOfNumber n s.air).state = .running) :
    Stands s (onFan n (rampExpires s.clock) s) := by
  refine stands_onFan s n (fun k x => rfl) fun k hok => ?_
  obtain ⟨htarget, -, -⟩ := hok
  exact ⟨htarget, Nat.min_le_left _ _, fun hne => absurd h hne⟩

end Changes

end Sys2Proof.Machine
end

section
/-! SUPPORT. What a command can do to demands, grants and outputs, said once for every command: it leaves them, it is an event whose
end forms them afresh, or it is the start of a start sequence or its end (R154, R157, R161, R171, R174). -/

namespace Sys2Proof.Machine

/-- The allocator that an event of its own leaves for the end, with what is then asked of it: requests and term stand without a
recomputation, and the applied grants without a realisation (R157, R161, R171). -/
structure AllocReady (was : Alloc) (work : Work) (a : Alloc) : Prop where
  grants : a.applied = a.computed ∧ a.computed = was.computed ∨
    a.computed = was.computed ∧ a.applied = was.applied ∧ a.pendingDue = was.pendingDue
  requests : work ≠ .recompute → a.requests = was.requests ∧ a.term = was.term
  applied : work = .none → a.applied = was.applied

theorem AllocReady.refl (work : Work) (a : Alloc) : AllocReady a work a :=
  ⟨.inr ⟨rfl, rfl, rfl⟩, fun _ => ⟨rfl, rfl⟩, fun _ => rfl⟩

/-- What a command can do to demands, grants and outputs. -/
inductive LoadStep (s : State) : State → Prop
  /-- It ends no event, and leaves them. -/
  | stands {t : State} (h : Stands s t) : LoadStep s t
  /-- It is an event of a running station, in which the loads hold their grants. -/
  | event {u : State} {work : Work} {a : Alloc} (hrun : s.start.running = true) (h : SameGrants s u)
      (ha : AllocReady u.alloc work a) : LoadStep s (finish s work (u.setAlloc a))
  /-- A start sequence begins: nothing is granted, and the outputs are off. -/
  | rests {t : State} (hrun : t.start.running = false) (hgrants : GrantsOk t) (houtputs : OutputsOk t) : LoadStep s t
  /-- A start sequence ends. -/
  | starts (r : StartReading) : LoadStep s (endStart r s)

theorem LoadStep.refl (s : State) : LoadStep s s := .stands (.refl s)

/-- An event that leaves the allocator to its end. -/
theorem LoadStep.ended {s u : State} (hrun : s.start.running = true) (work : Work) (h : SameGrants s u) :
    LoadStep s (finish s work u) := .event (u := u) hrun h (.refl work u.alloc)

/-- A command that takes such a step. -/
def StepsLoads (s : State) (a : Answer) : Prop := ∃ t, a = .next t ∧ LoadStep s t

namespace StepsLoads

variable {s u : State} {c : Prop} [Decidable c]

theorem guarded (hu : c → LoadStep s u) : StepsLoads s (.next (if c then u else s)) := by
  refine ⟨_, rfl, ?_⟩
  split
  · exact hu ‹_›
  · exact .refl s

/-- A command that ends no event. -/
theorem stands (hu : c → Stands s u) : StepsLoads s (.next (if c then u else s)) := guarded fun hc => .stands (hu hc)

/-- A command of a running station that ends its event. -/
theorem event {work : Work} (hidle : s.start.running = false → ¬c) (hu : SameGrants s u) :
    StepsLoads s (.next (if c then finish s work u else s)) :=
  guarded fun hc => .ended (Bool.eq_true_of_not_eq_false fun hrun => hidle hrun hc) work hu

/-- A command of a running station that works on the allocator before its event's end. -/
theorem granted {work : Work} {a : Alloc} (hidle : s.start.running = false → ¬c) (ha : AllocReady s.alloc work a) :
    StepsLoads s (.next (if c then finish s work (s.setAlloc a) else s)) :=
  guarded fun hc => .event (Bool.eq_true_of_not_eq_false fun hrun => hidle hrun hc) (.refl s) ha

end StepsLoads

section Frames

variable (s : State) (kind : Nat) (sender : Station) (payload : List Byte)

/-! ## Accepted frames -/

/-- The end of an event that may have changed the link state. -/
theorem loadStep_finishLink {u : State} (hrun : s.start.running = true) (h : SameGrants s u)
    (hstands : u.view.link = s.view.link → Stands s u) : LoadStep s (finishLink s u) := by
  unfold finishLink
  split
  · exact .stands (hstands ‹_›)
  · exact .ended hrun .none h

/-- A frame is taken with a delivery and a close that take a step. -/
theorem loadStep_takeFrame {deliver : State → State} {close : State → State → State}
    (hclose : s.start.running = true → LoadStep s (close s (deliver (heard kind sender payload s)))) :
    LoadStep s (takeFrame kind sender payload deliver close s) := by
  have hrun (hmay : mayAccept s = true) : s.start.running = true := (Bool.and_eq_true_iff.mp hmay).1
  rcases takeFrame_cases kind sender payload deliver close s with ⟨-, ht⟩ | ⟨hmay, -, ht⟩ | ⟨hmay, -, ht⟩
  · rw [ht]
    exact .refl s
  · rw [ht]
    exact .ended (hrun hmay) .none ((sameGrants_heard s _ _ _).trans (sameGrants_addCause _ _))
  · rw [ht]
    exact hclose (hrun hmay)

/-- A frame whose delivery ends its event. -/
theorem loadStep_frameEvent {deliver : State → State} (hdeliver : ∀ u, SameGrants u (deliver u)) :
    LoadStep s (takeFrame kind sender payload deliver (fun b t => finish b .none t) s) :=
  loadStep_takeFrame s kind sender payload fun hrun => .ended hrun .none ((sameGrants_heard s _ _ _).trans (hdeliver _))

theorem loadStep_passFrame : LoadStep s (passFrame kind sender payload s) :=
  loadStep_takeFrame s kind sender payload fun hrun =>
    loadStep_finishLink s hrun (sameGrants_heard s _ _ _) (stands_heard s _ _ _)

theorem loadStep_takeDirective (k : DirectiveKind) (p : Vector Byte 9) {deliver : State → State}
    (hdeliver : ∀ u, SameGrants u (deliver u)) : LoadStep s (takeDirective k sender p deliver s) := by
  unfold takeDirective
  split_ifs
  · exact loadStep_frameEvent s _ _ _ hdeliver
  · exact loadStep_passFrame s _ _ _
  · exact .refl s

theorem loadStep_takeQuery (row : Nat) (p : Vector Byte 3) : LoadStep s (takeQuery row sender p s) := by
  unfold takeQuery
  split_ifs
  · refine loadStep_takeFrame s _ _ _ fun hrun => loadStep_finishLink s hrun ?_ fun hlink => ?_
    · exact (sameGrants_heard s _ _ _).trans (sameGrants_offer _ _)
    · rw [answerQuery, offer_view] at hlink
      exact (stands_heard s _ _ _ hlink).trans (stands_offer _ _)
  · exact loadStep_passFrame s _ _ _
  · exact .refl s

/-- A beacon of a station that is no peer is not delivered, and may end a change of the link state (R27, R28). -/
theorem loadStep_beaconFrame (p : Vector Byte 24) :
    LoadStep s (takeFrame kindBeacon sender p.toList (deliverBeacon sender p) (closeBeacon sender) s) := by
  refine loadStep_takeFrame s _ _ _ fun hrun => ?_
  unfold closeBeacon
  split
  · exact .ended hrun .recompute ((sameGrants_heard s _ _ _).trans (sameGrants_deliverBeacon _ _ _))
  · rename_i hnone
    have hdeliver : deliverBeacon sender p (heard kindBeacon sender p.toList s) = heard kindBeacon sender p.toList s :=
      if_neg (by rwa [isPeer_heard])
    rw [hdeliver]
    exact loadStep_finishLink s hrun (sameGrants_heard s _ _ _) (stands_heard s _ _ _)

end Frames

/-! ## The start of a start sequence -/

theorem grantsOk_initial {s : State} (hcomputed : s.alloc.computed = Grants.zero) (happlied : s.alloc.applied = Grants.zero) :
    GrantsOk s := by
  constructor <;> simp [hcomputed, happlied]

/-- A start sequence holds every output off, whatever the doors' accumulators (R174). -/
theorem outputsOk_starting {s : State} (hrun : s.start.running = false) (hlighting : s.lighting = Lighting.initial)
    (hdoors : ∀ d ∈ s.doors.records, d.curtainOn = false) (h1 : s.air.fan1 = Fan.fresh) (h2 : s.air.fan2 = Fan.fresh) :
    OutputsOk s where
  channels := by
    rw [hlighting]
    intro c hc
    rw [List.eq_of_mem_replicate (hc : c ∈ List.replicate 4 Channel.dark)]
    exact ⟨rfl, Nat.le_refl _⟩
  docks := by
    rw [hlighting]
    intro d hd
    simp [Lighting.initial] at hd
  curtains := fun d hd hon => absurd (hdoors d hd) (by simp [hon])
  stages := fun h => absurd h (by simp [hrun])
  fan1 := by
    rw [h1]
    exact ⟨rfl, Nat.le_refl _, fun _ => rfl⟩
  fan2 := by
    rw [h2]
    exact ⟨rfl, Nat.le_refl _, fun _ => rfl⟩

theorem loadStep_powerOn (s : State) : LoadStep s (powerOn s) :=
  .rests rfl (grantsOk_initial rfl rfl) (outputsOk_starting rfl rfl (by simp [powerOn, State.reset, Doors.initial]) rfl rfl)

theorem loadStep_beginRestart (s u : State) : LoadStep s (beginRestart u) :=
  .rests rfl (grantsOk_initial rfl rfl)
    (outputsOk_starting rfl rfl (by simp [beginRestart, restartDoors, freshDoor]) rfl rfl)

/-! ## The allocator's own events -/

/-- The settle delay has passed: the applied grants take the computed ones (R161). -/
theorem applyComputed_ready (s : State) (work : Work) (h : work ≠ .none) :
    AllocReady s.alloc work { s.alloc with applied := s.alloc.computed, pendingDue := none } :=
  ⟨.inl ⟨rfl, rfl⟩, fun _ => ⟨rfl, rfl⟩, fun hnone => absurd hnone h⟩

/-- A meter check works on M, the runs and the term; a changed term is a recomputation (R155, R171). -/
theorem checkMeter_ready (s : State) : AllocReady s.alloc (termWork s (checkMeter s)) (checkMeter s).alloc := by
  have hkept (margin : Nat) (a : Alloc) : (meterRuns margin a).requests = a.requests ∧
      (meterRuns margin a).computed = a.computed ∧ (meterRuns margin a).applied = a.applied ∧
      (meterRuns margin a).pendingDue = a.pendingDue := by
    unfold meterRuns
    dsimp only
    (repeat' split) <;> exact ⟨rfl, rfl, rfl, rfl⟩
  obtain ⟨hrequests, hcomputed, happlied, hdue⟩ := hkept s.cfg.meter.margin { s.alloc with
    measured := measuredPower s.cfg.meter s.clock s.alloc.newest s.alloc.previous, nextCheck := s.alloc.nextCheck + 1000 }
  refine ⟨.inr ⟨hcomputed, happlied, hdue⟩, fun hwork => ⟨hrequests, ?_⟩, fun _ => happlied⟩
  by_contra hterm
  exact hwork (if_neg hterm)

section Exec

variable (s : State)

/-! ## Commands with cases of their own -/

theorem stepsLoads_lineIdle (bits : List Bool) : StepsLoads s (exec (.lineIdle bits) s) := by
  refine .stands fun _ => ?_
  split
  · exact stands_setLine s _
  · exact .refl s

theorem stepsLoads_transmitAttemptStart : StepsLoads s (exec .transmitAttemptStart s) := by
  refine .stands fun _ => ?_
  split
  · exact stands_setLine s _
  · exact .refl s

theorem stepsLoads_lostArbitration (k : Nat) : StepsLoads s (exec (.lostArbitration k) s) := by
  refine .stands fun _ => ?_
  (repeat' split)
  · exact stands_setLine s _
  · exact .refl s
  · exact .refl s

theorem stepsLoads_bitError (k : Nat) : StepsLoads s (exec (.bitError k) s) := by
  refine .stands fun _ => ?_
  (repeat' split)
  · exact stands_setLine s _
  · exact .refl s
  · exact .refl s

theorem stepsLoads_abortEnd : StepsLoads s (exec .abortEnd s) := by
  refine .guarded fun ⟨hrun, _⟩ => ?_
  unfold endAbort
  split_ifs
  · exact .stands (stands_setLine s _)
  · exact .stands (stands_setLine s _)
  · exact .ended hrun .none ((sameGrants_setLine s _).trans (sameGrants_resetLink _))

theorem stepsLoads_transmissionComplete : StepsLoads s (exec .transmissionComplete s) := by
  refine .guarded fun ⟨hrun, _⟩ => ?_
  split
  · unfold completeTransmission
    dsimp only
    split
    · exact .ended hrun .none ((sameGrants_setLine s _).trans (sameGrants_completeLink _))
    · rename_i hstill
      refine .stands ((stands_setLine s _).trans (stands_completeLink _ ?_))
      exact not_not.mp fun hmoved => hstill (.inr hmoved)
  · exact .refl s

theorem stepsLoads_timebaseLost : StepsLoads s (exec .timebaseLost s) := by
  refine ⟨_, rfl, ?_⟩
  split_ifs with hlost hrun
  · exact .stands (stands_setView s)
  · have hheld : SameGrants s ((s.setLine (holdLine s.line)).setTraffic (spoilPassage s.traffic)) :=
      (sameGrants_setLine s _).trans (sameGrants_setTraffic _)
    exact .ended hrun .none (hheld.trans ((sameGrants_setView _).trans (sameGrants_addCause _ _)))
  · exact .stands ((stands_setView s).trans (stands_setView _))

theorem stepsLoads_timebaseRecovered : StepsLoads s (exec .timebaseRecovered s) := by
  refine .guarded fun _ => ?_
  split
  · rename_i hrun
    have hreleased : SameGrants s ((s.setLine (releaseLine s.line)).setView { s.view with timebaseLost := false }) :=
      (sameGrants_setLine s _).trans (sameGrants_setView _)
    exact .ended hrun .none (hreleased.trans (sameGrants_removeCause _ _))
  · exact .stands (stands_setView s)

theorem stepsLoads_shiftInputChange (pressed : Bool) (event : InputEvent) :
    StepsLoads s (exec (.shiftInputChange pressed event) s) := by
  refine .guarded fun hadmits => ?_
  have hrun : s.start.running = true := (Bool.and_eq_true_iff.mp hadmits).1
  cases event with
  | raw => exact .stands (stands_setShift s)
  | stable =>
    dsimp only
    split
    · exact .ended hrun .none ((sameGrants_setShift s _).trans (sameGrants_press _))
    · exact .stands (stands_setShift s)

/-- The MANUAL input's debounced level works on the LIGHT stack (R90). -/
theorem loadStep_takeManual (hrun : s.start.running = true) (level : Bool) (f : List OverrideEntry → List OverrideEntry) :
    LoadStep s (finish s .none (onStackOf .light f (onManual (Debounced.take level) s))) := by
  have htaken : SameGrants s (onManual (Debounced.take level) s) := sameGrants_setLighting s rfl rfl
  exact .ended hrun .none (htaken.trans (sameGrants_onStackOf _ _ _))

theorem stepsLoads_manualAsserted (event : InputEvent) : StepsLoads s (exec (.manualAsserted event) s) := by
  refine .guarded fun hadmits => ?_
  cases event with
  | raw => exact .stands (stands_onManual s _)
  | stable => exact loadStep_takeManual s (Bool.and_eq_true_iff.mp hadmits).1 true _

theorem stepsLoads_manualReleased (event : InputEvent) : StepsLoads s (exec (.manualReleased event) s) := by
  refine .guarded fun hadmits => ?_
  cases event with
  | raw => exact .stands (stands_onManual s _)
  | stable => exact loadStep_takeManual s (Bool.and_eq_true_iff.mp hadmits).1 false _

theorem stepsLoads_doorContactChange (d : Fin 8) (isOpen : Bool) (event : InputEvent) :
    StepsLoads s (exec (.doorContactChange d isOpen event) s) := by
  refine .guarded fun hadmits => ?_
  cases event with
  | raw => exact .stands (stands_onDoor s d fun _ => rfl)
  | stable =>
    exact .ended (Bool.and_eq_true_iff.mp hadmits).1 .none (sameGrants_onDoor s d fun r => contactFirst_granted _ _ r _)

theorem stepsLoads_doorTrailerChange (d : Fin 8) (isPresent : Bool) (event : InputEvent) :
    StepsLoads s (exec (.doorTrailerChange d isPresent event) s) := by
  refine .guarded fun hadmits => ?_
  cases event with
  | raw => exact .stands (stands_onDoor s d fun _ => rfl)
  | stable =>
    exact .ended (Bool.and_eq_true_iff.mp hadmits).1 .none (sameGrants_onDoor s d fun r => trailerFirst_granted _ _ r _)

theorem stepsLoads_restart (sender : Station) (p : Vector Byte 9) : StepsLoads s (exec (.restart sender p) s) := by
  refine ⟨_, rfl, ?_⟩
  split_ifs
  · exact loadStep_takeFrame s _ _ _ fun _ => loadStep_beginRestart s _
  · exact loadStep_passFrame s _ _ _
  · exact .refl s

/-- Every command leaves the demands, the grants and the outputs, ends an event, or is of a start sequence. -/
theorem exec_stepsLoads (c : Instr) : StepsLoads s (exec c s) := by
  cases c
  case powerOnReset => exact ⟨_, rfl, loadStep_powerOn s⟩
  case startSequenceEnd r =>
    refine ⟨_, rfl, ?_⟩
    split
    · exact .refl s
    · exact .starts r
  case lineIdle bits => exact stepsLoads_lineIdle s bits
  case startDelimiter => exact .stands fun _ => stands_setLine s _
  case frameDiscarded bits => exact .stands fun _ => stands_setLine s _
  case transmitAttemptStart => exact stepsLoads_transmitAttemptStart s
  case lostArbitration k => exact stepsLoads_lostArbitration s k
  case bitError k => exact stepsLoads_bitError s k
  case abortEnd => exact stepsLoads_abortEnd s
  case transmissionComplete => exact stepsLoads_transmissionComplete s
  case beaconReceived st p => exact ⟨_, rfl, loadStep_beaconFrame s st p⟩
  case handoffReceived st p => exact ⟨_, rfl, loadStep_frameEvent s _ _ _ fun u => sameGrants_deliverHandoff u st p⟩
  case shiftReceived st p => exact ⟨_, rfl, loadStep_frameEvent s _ _ _ fun u => sameGrants_deliverShift u p⟩
  case alarmReceived st p => exact ⟨_, rfl, loadStep_frameEvent s _ _ _ fun u => sameGrants_deliverAlarm u st p⟩
  case replyReceived st p => exact ⟨_, rfl, loadStep_passFrame s _ _ _⟩
  case lightSet st p | heatHold st p | heatSetpoint st p | heatBoost st p | ventPurge st p | ventStop st p =>
    exact ⟨_, rfl, loadStep_takeDirective s _ _ _ fun u => sameGrants_placeEntry u _ _ st p⟩
  case release st p => exact ⟨_, rfl, loadStep_takeDirective s _ _ _ fun u => sameGrants_setOverrides u _⟩
  case alarmAck st p => exact ⟨_, rfl, loadStep_takeDirective s _ _ _ fun u => sameGrants_setAlarms u _⟩
  case restart st p => exact stepsLoads_restart s st p
  case queryStatus | queryPeer | queryShift | queryDoor | queryOverrides | queryLoads =>
    exact ⟨_, rfl, loadStep_takeQuery s _ _ _⟩
  case directiveDropped st p =>
    refine ⟨_, rfl, ?_⟩
    split
    · exact .refl s
    · exact loadStep_passFrame s _ _ _
  case queryDropped st p =>
    refine ⟨_, rfl, ?_⟩
    split
    · exact .refl s
    · exact loadStep_passFrame s _ _ _
  case beaconScheduling =>
    exact .event (fun hrun => by simp [beaconDue, hrun]) ((sameGrants_scheduleBeacon s).trans (sameGrants_balance _))
  case entryStale n => exact .event (fun hrun => by simp [staleDue, hrun]) (sameGrants_onEntry s _ _)
  case entryLost n =>
    exact .event (fun hrun => by simp [lostDue, hrun]) ((sameGrants_onEntry s _ _).trans (sameGrants_lowerLost _ _))
  case listenTimerExpiry => exact .event (fun hrun => by simp [listenDue, hrun]) (sameGrants_endListen s)
  case isolationTimerExpiry => exact .event (fun hrun => by simp [isolationDue, hrun]) (sameGrants_setView s)
  case timebaseLost => exact stepsLoads_timebaseLost s
  case timebaseRecovered => exact stepsLoads_timebaseRecovered s
  case shiftInputChange pressed event => exact stepsLoads_shiftInputChange s pressed event
  case changeoverTimerExpiry => exact .event (fun hrun => by simp [changeoverDue, hrun]) (sameGrants_setShift s _)
  case lockoutTimerExpiry => exact .stands fun _ => stands_setShift s
  case gateBeamChange beam => exact .event (fun hrun => by simp [gateSampled, hrun]) (sameGrants_beamChange s beam)
  case invalidTransition =>
    exact .event (fun hrun => by simp [gateSampled, hrun]) (sameGrants_sameBay s (sameBay_invalidTransition _ _))
  case gateFaultClear =>
    exact .event (fun hrun => by simp [gateClearDue, hrun]) (sameGrants_sameBay s (sameBay_clearGateFault _))
  case presenceAsserted z => exact .event (fun hrun => by simp [hrun]) (sameGrants_onZone s z _)
  case presenceReleased z => exact .stands fun ⟨_, hset⟩ => stands_releaseZone s hset
  case zoneHoldExpiry z => exact .event (fun hrun => by simp [zoneDue, hrun]) (sameGrants_onZone s z _)
  case vacancyCorrection => exact .event (fun hrun => by simp [vacancyDue, hrun]) (sameGrants_setTraffic s)
  case leadInTimerExpiry => exact .event (fun hrun => by simp [leadInDue, hrun]) (sameGrants_setLighting s rfl rfl)
  case vacatingTimerExpiry => exact .event (fun hrun => by simp [vacatingDue, hrun]) (sameGrants_setLighting s rfl rfl)
  case levelRiseStep i => exact .stands fun _ => (stands_stepRise s i).trans (stands_measure _)
  case manualAsserted event => exact stepsLoads_manualAsserted s event
  case manualReleased event => exact stepsLoads_manualReleased s event
  case doorContactChange d isOpen event => exact stepsLoads_doorContactChange s d isOpen event
  case doorTrailerChange d isPresent event => exact stepsLoads_doorTrailerChange s d isPresent event
  case doorHoldExpiry d =>
    exact .event (fun hrun => by simp [doorHoldDue, doorTest, hrun]) (sameGrants_onDoor s d fun _ => rfl)
  case doorFaultClear d =>
    exact .event (fun hrun => by simp [doorClearDue, doorTest, hrun])
      (sameGrants_onDoor s d fun r => clearDoorFault_granted _ _ r)
  case boostRecoveryExpiry => exact .event (fun hrun => by simp [boostDue, hrun]) (sameGrants_setDoors s)
  case temperatureReading value => exact .event (fun hrun => by simp [readingDue, hrun]) (sameGrants_readTemperature s value)
  case stageMinOnExpiry k => exact .event (fun hrun => by simp [stageTest, hrun]) (.refl s)
  case stageMinOffExpiry k => exact .event (fun hrun => by simp [stageTest, hrun]) (.refl s)
  case gasSample g value => exact .event (fun hrun => by simp [sampleDue, hrun]) (sameGrants_sampleGas s g value)
  case coastTimerExpiry n =>
    refine .stands fun hdue => (stands_coastExpires s ?_).trans (stands_measure _)
    exact ((coastDue_iff s n).mp hdue).2.1
  case rampTimerExpiry n =>
    refine .stands fun hdue => (stands_rampExpires s ?_).trans (stands_measure _)
    exact ((rampDue_iff s n).mp hdue).2.1
  case overrideExpiry k source origin =>
    exact .event (fun hrun => by simp [expiryDue, hrun]) (sameGrants_onStackOf s k _)
  case pendingIncreaseExpiry =>
    exact .granted (fun hrun => by simp [pendingDue, hrun]) (applyComputed_ready s .realise (by decide))
  case meterPulse => exact .stands fun _ => (stands_takePulse s).trans (stands_measure _)
  case meterCheck => exact .granted (fun hrun => by simp [checkDue, hrun]) (checkMeter_ready s)
  case doorSettlingEnds d isOpen isPresent =>
    exact .event (fun hrun => by simp [settlingDue, doorTest, hrun])
      (sameGrants_onDoor s d fun r => settlingEnds_granted _ _ r _ _)
  case openSecondsAdvance d => exact .stands fun _ => stands_onDoor s d (advanceOpenSecond_curtain _)

end Exec

/-- What a step of the machine can do: a millisecond passes, or a command takes its step from a state of which only the queue has
moved on. -/
theorem step_loadStep {s t : State} (h : step s = .next t) : Stands s t ∨ ∃ rest, LoadStep (s.setPending rest) t := by
  unfold step at h
  split at h
  · cases h
    exact .inl (stands_tick s)
  · rename_i c rest _
    obtain ⟨u, hu, hstep⟩ := exec_stepsLoads (s.setPending rest) c
    cases hu.symm.trans h
    exact .inr ⟨rest, hstep⟩

end Sys2Proof.Machine
end

section
/-! SUPPORT. Proofs of O58: every step keeps the demands (R154), and what they then are, row by row of Tables 25 and 31; the field
outputs of a running station (R80 to R82, R89, R100, R113, R117, R125, R126, R131, R134, R151). -/

namespace Sys2Proof.Machine

/-! ## Every step keeps the demands -/

theorem DemandsOk.units {s : State} (h : DemandsOk s) : UnitsOk s :=
  ⟨h.channels, h.docks, h.curtains, h.setpoint, h.effective, h.fan1, h.fan2, h.balancing, h.available⟩

/-- Where the demands and what they depend on stand, they are still those of the tables. -/
theorem DemandsOk.stands {s t : State} (h : DemandsOk s) (k : Stands s t) : DemandsOk t := by
  have hview : UnitsOk ((s.setView t.view).setTraffic t.traffic) := by
    refine ⟨h.channels, h.docks, h.curtains, h.setpoint, h.effective, ?_, ?_, ?_, h.available⟩
    · have h1 := h.fan1
      rw [← k.occupied] at h1
      exact h1
    · have h2 := h.fan2
      unfold assistApplies at h2
      rw [← k.entries] at h2
      exact h2
    · have hbalancing := h.balancing
      rw [← k.link] at hbalancing
      exact hbalancing
  have hpage : t.shift.page = s.shift.page := congrArg DemandView.page k.demands
  have hoverrides : t.overrides = s.overrides := congrArg DemandView.overrides k.demands
  have hcurrent : currentPage t = currentPage s := by simp only [currentPage, State.cfg, k.start, hpage]
  have hworking : isWorking t = isWorking s := by rw [isWorking, isWorking, hcurrent]
  refine { hview.of_view k.demands with stages := fun i c st hc hst => ?_ }
  rw [State.cfg, k.start] at hc
  rw [k.heat] at hst
  rw [hworking, hoverrides, k.heat]
  exact h.stages i c st hc hst

/-- A step of a running station leaves every demand as its table gives it, where it was so before. -/
theorem LoadStep.demands {s t : State} (h : LoadStep s t) (hs : s.start.running = true → DemandsOk s)
    (hrun : t.start.running = true) : DemandsOk t := by
  cases h with
  | stands hstands => exact (hs (hstands.start ▸ hrun)).stands hstands
  | event => exact finish_demands _ _ _
  | rests hrest => exact absurd hrun (by simp [hrest])
  | starts r => exact finish_demands _ _ _

/-! ## Table 25 -/

/-- HOLD rules, as the ruling HEAT effect says (R110). -/
theorem holdRules_iff (rule : Option Effect) : holdRules rule = true ↔ rule = some .hold := by
  cases rule with
  | none => simp [holdRules]
  | some effect => cases effect <;> simp [holdRules]

section Stage

variable {working hold call : Bool} {h : Heat} {k : Nat} {st : Stage}

/-- A stage that its row calls. -/
theorem StageDemandOk.of_called {row : StageCall} {tier : Tier} (hst : StageDemandOk row st) (hrow : row = .called tier) :
    st.demand = .called ∧ st.tier = some tier := by
  subst hrow
  exact hst

/-- A stage that its row releases at once. -/
theorem StageDemandOk.of_cut {row : StageCall} (hst : StageDemandOk row st) (hrow : row = .released true) :
    st.on = false ∧ st.demand = .none ∧ st.tier = none ∧ st.granted = false := by
  subst hrow
  unfold StageDemandOk at hst
  cases hon : st.on with
  | true => simp [hon] at hst
  | false => simpa [hon] using hst

/-- A stage that its row releases in its time. -/
theorem StageDemandOk.of_released {row : StageCall} (hst : StageDemandOk row st) (hrow : row = .released false) :
    if st.on then st.demand = .holding ∧ st.tier = some 3
    else st.on = false ∧ st.demand = .none ∧ st.tier = none ∧ st.granted = false := by
  subst hrow
  unfold StageDemandOk at hst
  cases hon : st.on with
  | true => simpa [hon] using hst
  | false => simpa [hon] using hst

/-- The rows of Table 25 while the monitor is in fault (R113). -/
theorem stageCall_of_fault (hfault : h.fault = true) : stageCall working hold h k call =
    if hold then .released true else if working ∧ k = 0 then .called 2 else .released false := by
  simp [stageCall, hfault]

theorem stageCall_of_overheat (hfault : h.fault = false) (hover : h.overheat = true) :
    stageCall working hold h k call = .released true := by
  simp [stageCall, hfault, hover]

theorem stageCall_of_freeze (hfault : h.fault = false) (hover : h.overheat = false) (hfreeze : h.freeze = true) (hk : k = 0) :
    stageCall working hold h k call = .called 0 := by
  simp [stageCall, hfault, hover, hfreeze, hk]

/-- The rows of Table 25 between the limits (R113). -/
theorem stageCall_of_limits (hfault : h.fault = false) (hover : h.overheat = false) (hfreeze : ¬(h.freeze = true ∧ k = 0)) :
    stageCall working hold h k call = if hold then .released true
      else if call then .called (if h.source = .unoccupied then 3 else 2) else .released false := by
  simp only [stageCall, hfault, hover, if_neg hfreeze, Bool.false_eq_true, if_false]

end Stage

/-! ## Table 31 -/

section Fan

variable {d : FanDemand} {f : Fan} {source : FanSource} {dir : AirDir} {n : Nat} {tier : Tier}

/-- A fan whose row has a direction and a speed. -/
theorem FanDemandOk.runs (h : FanDemandOk d f) (hd : d = { source := source, dir := some dir, speed := n, tier := some tier }) :
    f.source = source ∧ f.requested = dir ∧ f.desired = n ∧ f.tier = some tier := by
  obtain ⟨hsource, hspeed, htier, hdir⟩ := h
  subst hd
  exact ⟨hsource, hdir dir rfl, hspeed, htier⟩

/-- A fan whose row has speed 0. -/
theorem FanDemandOk.rests (h : FanDemandOk d f) (hd : d = { source := source, dir := none, speed := 0, tier := none }) :
    f.source = source ∧ f.desired = 0 ∧ f.tier = none := by
  obtain ⟨hsource, hspeed, htier, -⟩ := h
  subst hd
  exact ⟨hsource, hspeed, htier⟩

end Fan

/-- A ruling VENT effect that stops the fans: a stop, or a purge with speed 0 (Table 31, row 5). -/
def VentStops (vent : Option Effect) : Prop := vent = some .stop ∨ ∃ d, vent = some (.purge d 0)

theorem purgeOf_purge {d : AirDir} {n : Nat} (hn : 0 < n) : purgeOf (some (.purge d n)) = some (d, n) := if_pos hn

theorem VentStops.purgeOf {vent : Option Effect} (h : VentStops vent) : purgeOf vent = none := by
  rcases h with rfl | ⟨d, rfl⟩ <;> rfl

theorem VentStops.isSome {vent : Option Effect} (h : VentStops vent) : vent.isSome = true := by
  rcases h with rfl | ⟨d, rfl⟩ <;> rfl

section Rows

variable {gas : GasClass} {vent : Option Effect} {actionSpeed assistSpeed minVent flow : Nat} {ventilates assist : Bool}
  {balancing : Int}

theorem resolveFan1_purge {d : AirDir} {n : Nat} (hv : vent = some (.purge d n)) (hn : 0 < n) :
    resolveFan1 .none actionSpeed vent minVent ventilates = { source := .vent, dir := some d, speed := n, tier := some 1 } := by
  simp [resolveFan1, hv, purgeOf_purge hn]

theorem resolveFan1_stops (hv : VentStops vent) :
    resolveFan1 .none actionSpeed vent minVent ventilates = { source := .vent, dir := none, speed := 0, tier := none } := by
  simp [resolveFan1, hv.purgeOf, hv.isSome, FanDemand.halt]

/-- Without gas or override fan 1 has its minimum ventilation, or nothing (Table 31, rows 6 and 8). -/
theorem resolveFan1_minimum : resolveFan1 .none actionSpeed none minVent ventilates =
    if 0 < minVent ∧ ventilates then { source := .minimum, dir := some .exhaust, speed := minVent, tier := some 2 }
    else { source := .none, dir := none, speed := 0, tier := none } := rfl

theorem resolveFan2_purge (hgas : gas ≠ .critical) {d : AirDir} {n : Nat} (hv : vent = some (.purge d n)) (hn : 0 < n) :
    resolveFan2 gas vent assist assistSpeed flow balancing = { source := .vent, dir := some d, speed := n, tier := some 1 } := by
  simp [resolveFan2, hgas, hv, purgeOf_purge hn]

theorem resolveFan2_assist (hgas : gas ≠ .critical) (hv : purgeOf vent = none) :
    resolveFan2 gas vent true assistSpeed flow balancing =
      { source := .assist, dir := some .supply, speed := assistSpeed, tier := some 1 } := by
  simp [resolveFan2, hgas, hv]

theorem resolveFan2_stops (hgas : gas ≠ .critical) (hv : VentStops vent) :
    resolveFan2 gas vent false assistSpeed flow balancing = { source := .vent, dir := none, speed := 0, tier := none } := by
  simp [resolveFan2, hgas, hv.purgeOf, hv.isSome, FanDemand.halt]

/-- Without gas, override or assist fan 2 balances, or rests (Table 31, rows 7 and 8). -/
theorem resolveFan2_balancing (hgas : gas ≠ .critical) : resolveFan2 gas none false assistSpeed flow balancing =
    if 0 < balancingSpeed flow balancing then
      { source := .balancing, dir := some (balancingDir balancing), speed := balancingSpeed flow balancing, tier := some 3 }
    else { source := .none, dir := none, speed := 0, tier := none } := by
  simp [resolveFan2, hgas, purgeOf, FanDemand.idle]

end Rows

/-- The bay is occupied: the count is above 0 or a zone is active (R69, R72). -/
theorem occupied_iff (t : Traffic) :
    occupied t = true ↔ 0 < t.count ∨ ∃ z ∈ t.zones, z.asserted = true ∨ z.releasedAt ≠ none := by
  simp [occupied, present, Zone.active, Option.isSome_iff_ne_none]

/-- The condition a neighbour's entry has to meet (R126). -/
theorem callsAssist_iff (e : PeerEntry) : callsAssist e = true ↔
    (e.state = .fresh ∨ e.state = .stale) ∧ ∃ a, e.alarms = some a ∧ conditionSet a 0 = true := by
  cases ha : e.alarms <;> simp [callsAssist, ha]

/-- Station `n` exists, and its entry calls for the assist (R126). -/
def NeighbourCalls (s : State) (n : Nat) : Prop :=
  n < s.start.config.header.nCfg ∧ ∃ e, s.view.entries[n]? = some e ∧
    (e.state = .fresh ∨ e.state = .stale) ∧ ∃ a, e.alarms = some a ∧ conditionSet a 0 = true

theorem neighbourCalls_iff (s : State) (n : Nat) :
    (n < s.nCfg ∧ callsAssist (s.view.entries.getD n PeerEntry.empty) = true) ↔ NeighbourCalls s n := by
  refine and_congr_right fun _ => ?_
  rw [List.getD_eq_getElem?_getD]
  cases he : s.view.entries[n]? with
  | none => simp [callsAssist, PeerEntry.empty]
  | some e => simp [callsAssist_iff]

/-- Neighbour assist applies where the lower or the upper neighbour calls for it (R126). -/
theorem assistApplies_iff (s : State) : assistApplies s = true ↔
    (∃ n, n + 1 = s.start.strapped ∧ NeighbourCalls s n) ∨ NeighbourCalls s (s.start.strapped + 1) := by
  have hlower : (∃ n, n + 1 = s.start.strapped ∧ NeighbourCalls s n) ↔
      1 ≤ s.start.strapped ∧ NeighbourCalls s (s.start.strapped - 1) := by
    constructor
    · rintro ⟨n, hn, hcalls⟩
      obtain rfl : n = s.start.strapped - 1 := by omega
      exact ⟨by omega, hcalls⟩
    · exact fun ⟨hpos, hcalls⟩ => ⟨_, Nat.sub_add_cancel hpos, hcalls⟩
  rw [hlower, ← neighbourCalls_iff, ← neighbourCalls_iff, assistApplies]
  simp only [Bool.or_eq_true, Bool.and_eq_true, decide_eq_true_eq, State.own, and_assoc]

theorem balancingSpeed_eq (flow : Nat) (balancing : Int) :
    balancingSpeed flow balancing = if flow = 0 then 0 else balancing.natAbs * 100 / flow / 5 * 5 := rfl

/-! ## The rows that apply -/

/-- A stage's record under each row of Table 25, for HOLD and the page's class as they stand (R110, R113, R114). -/
theorem StageDemandOk.rows {working holds : Bool} {hold isWorkingPage : Prop} (hhold : holds = true ↔ hold)
    (hworking : working = true ↔ isWorkingPage) {h : Heat} {k : Nat} {st : Stage}
    (hst : StageDemandOk (stageCall working holds h k st.call) st) :
    let called (tier : Tier) : Prop := st.demand = .called ∧ st.tier = some tier
    let off : Prop := st.on = false ∧ st.demand = .none ∧ st.tier = none ∧ st.granted = false
    (h.fault = true →
      (hold → off) ∧ (¬hold → isWorkingPage → k = 0 → called 2) ∧
      (¬hold → ¬(isWorkingPage ∧ k = 0) → if st.on then st.demand = .holding ∧ st.tier = some 3 else off)) ∧
    (h.fault = false →
      (h.overheat = true → off) ∧ (h.overheat = false → h.freeze = true → k = 0 → called 0) ∧
      (h.overheat = false → ¬(h.freeze = true ∧ k = 0) →
        (hold → off) ∧ (¬hold → st.call = true → called (if h.source = .unoccupied then 3 else 2)) ∧
        (¬hold → st.call = false → if st.on then st.demand = .holding ∧ st.tier = some 3 else off))) := by
  simp only [← hhold, ← hworking]
  refine ⟨fun hfault => ⟨fun hh => ?_, fun hh hw hk => ?_, fun hh hw => ?_⟩,
    fun hfault => ⟨fun hover => ?_, fun hover hfreeze hk => ?_,
      fun hover hfreeze => ⟨fun hh => ?_, fun hh hcall => ?_, fun hh hcall => ?_⟩⟩⟩
  · exact hst.of_cut (by rw [stageCall_of_fault hfault, if_pos hh])
  · exact hst.of_called (by rw [stageCall_of_fault hfault, if_neg hh, if_pos ⟨hw, hk⟩])
  · exact hst.of_released (by rw [stageCall_of_fault hfault, if_neg hh, if_neg hw])
  · exact hst.of_cut (stageCall_of_overheat hfault hover)
  · exact hst.of_called (stageCall_of_freeze hfault hover hfreeze hk)
  · exact hst.of_cut (by rw [stageCall_of_limits hfault hover hfreeze, if_pos hh])
  · exact hst.of_called (by rw [stageCall_of_limits hfault hover hfreeze, if_neg hh, if_pos hcall])
  · exact hst.of_released (by rw [stageCall_of_limits hfault hover hfreeze, if_neg hh, if_neg (by simp [hcall])])

section Fans

variable {s : State}

/-- Fan 1 under each row of Table 31 (R125). -/
theorem DemandsOk.fan1Rows (h : DemandsOk s) :
    let vent := rulingEffect s.overrides.vent
    let minVent := (currentPage s).minVent
    let ventilates := isWorking s || occupied s.traffic
    let runs (source : FanSource) (dir : AirDir) (percent : Nat) (tier : Tier) : Prop :=
      s.air.fan1.source = source ∧ s.air.fan1.requested = dir ∧ s.air.fan1.desired = percent ∧ s.air.fan1.tier = some tier
    let rests (source : FanSource) : Prop := s.air.fan1.source = source ∧ s.air.fan1.desired = 0 ∧ s.air.fan1.tier = none
    (s.air.gasClass = .critical → runs .critical .exhaust 100 0) ∧
    (s.air.gasClass = .action → runs .action .exhaust s.cfg.air.actionSpeed 1) ∧
    (∀ d n, vent = some (.purge d n) → 0 < n → s.air.gasClass = .none → runs .vent d n 1) ∧
    (s.air.gasClass = .none → VentStops vent → rests .vent) ∧
    (s.air.gasClass = .none → vent = none →
      (0 < minVent → ventilates = true → runs .minimum .exhaust minVent 2) ∧
      (minVent = 0 ∨ ventilates = false → rests .none)) := by
  have hrow := h.fan1
  refine ⟨fun hgas => ?_, fun hgas => ?_, fun d n hvent hn hgas => ?_, fun hgas hstops => ?_,
    fun hgas hvent => ⟨fun hmin hv => ?_, fun hnone => ?_⟩⟩
  · exact hrow.runs (by rw [hgas]; rfl)
  · exact hrow.runs (by rw [hgas]; rfl)
  · exact hrow.runs (by rw [hgas]; exact resolveFan1_purge hvent hn)
  · exact hrow.rests (by rw [hgas]; exact resolveFan1_stops hstops)
  · exact hrow.runs (by rw [hgas, hvent, resolveFan1_minimum, if_pos ⟨hmin, hv⟩])
  · refine hrow.rests ?_
    rw [hgas, hvent, resolveFan1_minimum, if_neg]
    rintro ⟨hmin, hv⟩
    rcases hnone with hzero | hidle
    · exact absurd hmin (by simp [hzero])
    · exact absurd hv (by simp [hidle])

/-- Fan 2 under each row of Table 31 (R125, R126, R134). -/
theorem DemandsOk.fan2Rows (h : DemandsOk s) :
    let vent := rulingEffect s.overrides.vent
    let speed := balancingSpeed s.cfg.air.fan2.flow s.air.balancing
    let runs (source : FanSource) (dir : AirDir) (percent : Nat) (tier : Tier) : Prop :=
      s.air.fan2.source = source ∧ s.air.fan2.requested = dir ∧ s.air.fan2.desired = percent ∧ s.air.fan2.tier = some tier
    let rests (source : FanSource) : Prop := s.air.fan2.source = source ∧ s.air.fan2.desired = 0 ∧ s.air.fan2.tier = none
    (s.air.gasClass = .critical → runs .critical .exhaust 100 0) ∧
    (∀ d n, vent = some (.purge d n) → 0 < n → s.air.gasClass ≠ .critical → runs .vent d n 1) ∧
    (s.air.gasClass ≠ .critical → vent = none ∨ VentStops vent →
      (assistApplies s = true → runs .assist .supply s.cfg.air.assistSpeed 1) ∧
      (assistApplies s = false → VentStops vent → rests .vent) ∧
      (assistApplies s = false → vent = none → 0 < speed → runs .balancing (balancingDir s.air.balancing) speed 3) ∧
      (assistApplies s = false → vent = none → speed = 0 → rests .none)) := by
  have hrow := h.fan2
  refine ⟨fun hgas => ?_, fun d n hvent hn hgas => ?_, fun hgas hvent => ⟨fun hassist => ?_, fun hassist hstops => ?_,
    fun hassist hnone hspeed => ?_, fun hassist hnone hspeed => ?_⟩⟩
  · exact hrow.runs (by rw [hgas]; rfl)
  · exact hrow.runs (resolveFan2_purge hgas hvent hn)
  · have hpurge : purgeOf (rulingEffect s.overrides.vent) = none := by
      rcases hvent with hnone | hstops
      · rw [hnone]
        rfl
      · exact hstops.purgeOf
    exact hrow.runs (by rw [hassist]; exact resolveFan2_assist hgas hpurge)
  · exact hrow.rests (by rw [hassist]; exact resolveFan2_stops hgas hstops)
  · exact hrow.runs (by rw [hassist, hnone, resolveFan2_balancing hgas, if_pos hspeed])
  · exact hrow.rests (by rw [hassist, hnone, resolveFan2_balancing hgas, if_neg (by simp [hspeed])])

end Fans

/-! ## The field outputs of a running station -/

/-- The duty of a channel is its mode's (R80). -/
theorem lightingDuties_getElem? {s : State} (hrun : s.start.running = true) {i : Nat} {c : ChannelConfig} {ch : Channel}
    (hc : s.start.config.lighting.channels[i]? = some c) (hch : s.lighting.channels[i]? = some ch) :
    (lightingDuties s)[i]? = some (match c.mode with
      | .follow => ch.present
      | .followInverted => 100 - ch.present
      | .fullForced => ch.present
      | .offForced => 0) := by
  rw [lightingDuties, List.getElem?_zipWith, hc, hch]
  change some (channelDuty s c.mode ch) = _
  cases c.mode <;> simp [channelDuty, hrun]

/-- A fan with a speed and a direction is driven so, and one without a speed is off (R131). -/
theorem fanDrive_of_running {s : State} (hrun : s.start.running = true) (f : Fan) :
    (f.present = 0 → fanDrive s f = none) ∧
      ∀ dir, 0 < f.present → f.direction = some dir → fanDrive s f = some (dir, f.present) := by
  refine ⟨fun hzero => if_neg (by simp [hzero]), fun dir hpos hdir => ?_⟩
  rw [fanDrive, if_pos ⟨hrun, hpos⟩, hdir]
  rfl

theorem attentionPin_of_running {s : State} (hrun : s.start.running = true) : attentionPin s =
    some (attentionAsserted s.cfg.alarms.annunciate s.alarms == s.cfg.alarms.assertedHigh) := if_pos hrun

/-- The attention output is asserted exactly with an annunciated condition active or latched (R151). -/
theorem attentionAsserted_iff (mask : Half) (a : Alarms) : attentionAsserted mask a = true ↔
    ∃ n, n < 16 ∧ conditionSet mask n = true ∧ (conditionSet a.active n = true ∨ conditionSet a.latched n = true) := by
  unfold attentionAsserted conditionSet
  rw [decide_eq_true_eq]
  constructor
  · intro hne
    by_contra hnone
    refine hne (BitVec.eq_of_getLsbD_eq fun i hi => ?_)
    have hi' : 15 - (15 - i) = i := by omega
    have hbit := fun hm hl => hnone ⟨15 - i, by omega, hm, hl⟩
    rw [hi'] at hbit
    cases hm : mask.getLsbD i with
    | false => simp [hm]
    | true =>
      obtain ⟨hactive, hlatched⟩ := not_or.mp (hbit hm)
      simp [hactive, hlatched]
  · rintro ⟨n, -, hm, hl⟩ hzero
    have hbit := congrArg (·.getLsbD (15 - n)) hzero
    rcases hl with hl | hl <;> simp [hm, hl] at hbit

/-- Settles O58: the end of every event forms the demands (`LoadStep.demands`), a demand is the row of its table that applies, and
the outputs read the records. -/
theorem demandsKept : Obligations.DemandsKept := by
  refine ⟨fun s t hs hstep hrun => ?_, fun s hd => ?_, fun s hrun => ?_⟩
  · rcases step_loadStep hstep with hstands | ⟨rest, hload⟩
    · exact (hs (hstands.start ▸ hrun)).stands hstands
    · exact hload.demands (fun hr => (hs hr).stands (stands_setPending s rest)) hrun
  · have hpage : isWorking s = true ↔ (currentPage s).pageClass = .working := decide_eq_true_iff
    have hassist := assistApplies_iff s
    have hventilates : (isWorking s || occupied s.traffic) = true ↔ (currentPage s).pageClass = .working ∨
        (0 < s.traffic.count ∨ ∃ z ∈ s.traffic.zones, z.asserted = true ∨ z.releasedAt ≠ none) := by
      rw [Bool.or_eq_true, hpage, occupied_iff]
    refine ⟨fun i c ch hc hch => ?_, fun k c st hc hst => ?_, ?_⟩
    · have hrow := channelChoice_row s i c.mode
      rw [← hd.channels i c ch hc hch] at hrow
      exact hrow
    · exact (hd.stages k c st hc hst).rows (holdRules_iff _) hpage
    · obtain ⟨hcritical1, haction, hpurge1, hstops1, hminimum⟩ := hd.fan1Rows
      obtain ⟨hcritical2, hpurge2, hrest⟩ := hd.fan2Rows
      refine ⟨fun hgas => ⟨hcritical1 hgas, hcritical2 hgas⟩, haction,
        fun d n hvent hn => ⟨hpurge1 d n hvent hn, hpurge2 d n hvent hn⟩, hstops1, fun hgas hvent => ?_, fun hgas hvent => ?_⟩
      · obtain ⟨hruns, hrests⟩ := hminimum hgas hvent
        exact ⟨fun hmin hv => hruns hmin (hventilates.mpr hv),
          fun hnone => hrests (hnone.imp_right fun hidle => Bool.eq_false_iff.mpr (mt hventilates.mp hidle))⟩
      · obtain ⟨hassists, hstops2, hbalances, hidle⟩ := hrest hgas hvent
        have hno (h : ¬_) : assistApplies s = false := Bool.eq_false_iff.mpr (mt hassist.mp h)
        exact ⟨fun h => hassists (hassist.mpr h), fun h => hstops2 (hno h), fun h => hbalances (hno h), fun h => hidle (hno h)⟩
  · have hasserted := attentionAsserted_iff s.cfg.alarms.annunciate s.alarms
    refine ⟨fun i c ch hc hch => lightingDuties_getElem? hrun hc hch, ?_, ?_, ?_, fun f _ => fanDrive_of_running hrun f,
      fun hany => ?_, fun hnone => ?_⟩
    · simp [dockOutputs, hrun]
    · simp [curtainOutputs, hrun]
    · simp [stageOutputs, hrun]
    · rw [attentionPin_of_running hrun, hasserted.mpr hany]
      simp
    · have hclear : attentionAsserted s.cfg.alarms.annunciate s.alarms = false := by
        refine Bool.eq_false_iff.mpr fun hset => ?_
        obtain ⟨n, hn, hmask, hflag⟩ := hasserted.mp hset
        obtain ⟨hactive, hlatched⟩ := hnone n hn hmask
        rcases hflag with h | h
        · simp [hactive] at h
        · simp [hlatched] at h
      rw [attentionPin_of_running hrun, hclear]
      simp

end Sys2Proof.Machine
end

section
/-! SUPPORT. What the end of an event keeps of the allocator: the applied grants at or below the computed ones, and the requests at
the sums of the records (R155, R157, R161). -/

namespace Sys2Proof.Machine

/-! ## Applied and computed grants -/

theorem GrantsOk.of_alloc {s t : State} (h : GrantsOk s) (computed : t.alloc.computed = s.alloc.computed)
    (applied : t.alloc.applied = s.alloc.applied) (due : t.alloc.pendingDue = s.alloc.pendingDue) : GrantsOk t where
  tier1 := by rw [applied, computed]; exact h.tier1
  tier2 := by rw [applied, computed]; exact h.tier2
  tier3 := by rw [applied, computed]; exact h.tier3
  settled := by rw [applied, computed, due]; exact h.settled

/-- Grants that were applied as computed. -/
theorem GrantsOk.of_eq {s : State} (h : s.alloc.applied = s.alloc.computed) : GrantsOk s :=
  ⟨by rw [h], by rw [h], by rw [h], fun _ => h⟩

/-- The grants after a move toward new computed ones: the lesser is applied, with the settle delay running where it is below
(R161). -/
theorem moveApplied_sound (now interval : Nat) (g : Grants) (a : Alloc) :
    let b := moveApplied now interval g a
    b.applied.g1 ≤ b.computed.g1 ∧ b.applied.g2 ≤ b.computed.g2 ∧ b.applied.g3 ≤ b.computed.g3 ∧
      (b.pendingDue = none → b.applied = b.computed) := by
  refine ⟨Nat.min_le_right _ _, Nat.min_le_right _ _, Nat.min_le_right _ _, fun hdue => ?_⟩
  have hnone : g.exceeds (a.applied.lesser g) = false := by
    refine Bool.eq_false_iff.mpr fun hx => ?_
    simp [moveApplied, hx] at hdue
  have hle : ¬(min a.applied.g1 g.g1 < g.g1 ∨ min a.applied.g2 g.g2 < g.g2 ∨ min a.applied.g3 g.g3 < g.g3) :=
    of_decide_eq_false hnone
  obtain ⟨g1, g2, g3⟩ := g
  simp only [moveApplied, Grants.lesser, Grants.mk.injEq]
  dsimp only at hle
  omega

/-- A recomputation applies what is computed at once, or the lesser with the settle delay running (R161, R163). -/
theorem recompute_grantsOk (s : State) : GrantsOk (recompute s) := by
  by_cases hj : s.view.link = .joined
  · have halloc : (recompute s).alloc =
        recomputeJoined (s.setAlloc { s.alloc with requests := formRequests (loadList s) s.alloc.term }) := if_pos hj
    obtain ⟨h1, h2, h3, hdue⟩ := moveApplied_sound s.clock s.cfg.header.interval (recompute s).alloc.computed
      { s.alloc with requests := formRequests (loadList s) s.alloc.term }
    rw [halloc] at h1 h2 h3 hdue
    constructor <;> rw [halloc]
    · exact h1
    · exact h2
    · exact h3
    · exact hdue
  · refine .of_eq ?_
    simp [recompute, hj, recomputeAllowance]

theorem allocate_grantsOk (work : Work) {s : State} (h : GrantsOk s) : GrantsOk (allocate work s) := by
  obtain ⟨-, -, -, halloc⟩ := allocated work s
  by_cases hw : work = .recompute
  · rw [if_pos hw] at halloc
    exact (recompute_grantsOk s).of_alloc (by rw [halloc]) (by rw [halloc]) (by rw [halloc])
  · rw [if_neg hw] at halloc
    exact h.of_alloc (by rw [halloc]) (by rw [halloc]) (by rw [halloc])

theorem settleLoads_grantsOk (rounds : Nat) (work : Work) {s : State} (h : GrantsOk s) :
    GrantsOk (settleLoads rounds work s) := by
  induction rounds generalizing work s with
  | zero => exact h
  | succ n ih =>
    have halloc := driveOwners_alloc (allocate work s)
    have hd : GrantsOk (driveOwners (allocate work s)) :=
      (allocate_grantsOk work h).of_alloc (by rw [halloc]) (by rw [halloc]) (by rw [halloc])
    unfold settleLoads
    dsimp only
    split
    · exact hd
    · exact ih .recompute hd

/-- The end of an event keeps the applied grants at or below the computed ones (R161). -/
theorem finish_grantsOk (before : State) (work : Work) {s : State} (h : GrantsOk s) : GrantsOk (finish before work s) := by
  have hp : GrantsOk (publish before s) := by
    have halloc := (publish_frame before s).alloc
    exact h.of_alloc (by rw [halloc]) (by rw [halloc]) (by rw [halloc])
  have hw := settleLoads_grantsOk ((publish before s).heat.stages.length + 2) (workFor before work (publish before s)) hp
  unfold finish
  dsimp only
  generalize settleLoads _ _ _ = w at hw ⊢
  obtain ⟨-, -, -, -, halloc⟩ := measured_rest before w
  exact hw.of_alloc (by rw [halloc]) (by rw [halloc]) (by rw [halloc])

/-! ## The own requests -/

theorem recompute_requests (s : State) : (recompute s).alloc.requests = formRequests (loadList s) s.alloc.term := by
  by_cases hj : s.view.link = .joined <;> simp [recompute, hj, recomputeJoined, recomputeAllowance, moveApplied]

/-- After the rounds the own requests are those of the records, where the rounds began with a recomputation or the requests were so
before (R155, R157). -/
theorem settleLoads_requests (rounds : Nat) (work : Work) (p : State) (hf : StagesFormed p) (hr : holdings p < rounds)
    (hw : work ≠ .recompute → p.alloc.requests = formRequests (loadList p) p.alloc.term) :
    (settleLoads rounds work p).alloc.requests =
      formRequests (loadList (settleLoads rounds work p)) (settleLoads rounds work p).alloc.term := by
  induction rounds generalizing work p with
  | zero => omega
  | succ n ih =>
    obtain ⟨hasked, hformed, hcount, halloc⟩ := allocated work p
    obtain ⟨hstand, hfewer⟩ := driveOwners_rest (allocate work p) (hformed hf)
    have hmeter := ((allocate_frame work p).trans (driveOwners_frame _)).meter
    have hterm : (driveOwners (allocate work p)).alloc.term = p.alloc.term := (congrArg (fun a : Alloc => a.term) hmeter :)
    unfold settleLoads
    dsimp only
    split
    · rename_i he
      rw [hterm, formRequests_congr ((hstand he).trans hasked), driveOwners_alloc, halloc]
      split
      · exact recompute_requests p
      · exact hw ‹_›
    · rename_i he
      obtain ⟨hless, -⟩ := hfewer he
      exact ih .recompute _ (settleStages_stagesFormed _) (by omega) fun hne => absurd rfl hne

/-- The end of an event leaves the own requests those of the records, where it recomputes or the published state had them so
(R155, R157). -/
theorem finish_requests (before : State) (work : Work) (s : State)
    (hw : workFor before work (publish before s) ≠ .recompute → (publish before s).alloc.requests =
      formRequests (loadList (publish before s)) (publish before s).alloc.term) : RequestsOk (finish before work s) := by
  intro _
  have h := settleLoads_requests ((publish before s).heat.stages.length + 2) (workFor before work (publish before s))
    (publish before s) (settleStages_stagesFormed _) (by have := holdings_le (publish before s); omega) hw
  unfold finish
  dsimp only
  rw [(measured_rest _ _).2.2.2.2, measured_asked]
  exact h

end Sys2Proof.Machine
end

section
/-! SUPPORT. What the units' publishing makes of the loads: a load whose record stands keeps its grant, and one without a record is
granted nothing (R154). -/

namespace Sys2Proof.Machine

/-- `l'` is the place of the load `l` after its unit has published: granted nothing without a record, and the grant it had with one. -/
structure Republished (l l' : Load) : Prop where
  fitting : l'.fitting = l.fitting
  rated : l'.rated = l.rated
  withdrawn : l'.demand = none → l'.granted = 0
  kept : l'.demand ≠ none → l'.granted = l.granted

/-- A published load without a change of its record has the grant it had, where it was granted nothing without one. -/
theorem Republished.still {l l' : Load} (h : Republished l l') (hd : l'.demand = l.demand) (hn : l.demand = none → l.granted = 0) :
    l'.still = l.still := by
  have hgranted : l'.granted = l.granted := by
    by_cases hnone : l'.demand = none
    · rw [h.withdrawn hnone, hn (hd ▸ hnone)]
    · exact h.kept hnone
  simp only [Load.still, h.fitting, h.rated, hd, hgranted]

/-! ## The lists, one by one -/

theorem republished_channels (page : Page) (bay : BayState) (stack : List OverrideEntry) (i : Nat) (ks : List ChannelConfig)
    {was cs : List Channel} (h : List.zipWith heldGrant ks cs = List.zipWith heldGrant ks was) :
    List.Forall₂ Republished (List.zipWith channelLoad ks was)
      (List.zipWith channelLoad ks (chooseChannels page bay stack i ks cs)) := by
  induction ks generalizing i was cs with
  | nil => exact .nil
  | cons k ks ih =>
    cases cs with
    | nil =>
      cases was with
      | nil => exact .nil
      | cons => simp at h
    | cons c cs =>
      cases was with
      | nil => simp at h
      | cons x xs =>
        simp only [List.zipWith_cons_cons, List.cons.injEq] at h
        refine .cons ⟨rfl, rfl, fun hnone => ?_, fun hsome => ?_⟩ (ih (i + 1) h.2)
        · simp only [channelLoad, chooseChannel, Option.map_eq_none_iff] at hnone ⊢
          exact if_pos hnone
        · simp only [channelLoad, chooseChannel, ne_eq, Option.map_eq_none_iff] at hsome ⊢
          rw [if_neg hsome]
          rw [channelChoice_tier] at hsome
          have hheld := h.1
          rwa [heldGrant, heldGrant, if_neg hsome, if_neg hsome] at hheld

theorem republished_docks (ks : List Nat) {was ds : List DockLight} {rs : List Door}
    (h : ds.map DockLight.granted = was.map DockLight.granted) (hlength : ds.length = rs.length) :
    List.Forall₂ Republished (List.zipWith dockLoad ks was) (List.zipWith dockLoad ks
      (alongside (fun (d : DockLight) (r : Door) => demandDock d (r.state = .openSealed)) ds rs)) := by
  induction ds generalizing ks was rs with
  | nil =>
    rw [List.map_eq_nil_iff.mp h.symm]
    simp [alongside]
  | cons d ds ih =>
    cases was with
    | nil => simp at h
    | cons x xs =>
      cases rs with
      | nil => simp at hlength
      | cons r rs =>
        cases ks with
        | nil => exact .nil
        | cons k ks =>
          simp only [List.map_cons, List.cons.injEq] at h
          refine .cons ⟨rfl, rfl, ?_, ?_⟩ (ih ks h.2 (by simpa using hlength))
          · cases hs : decide (r.state = .openSealed) <;> simp [dockLoad, demandDock, hs]
          · cases hs : decide (r.state = .openSealed) <;> simp [dockLoad, demandDock, hs, h.1]

theorem republished_curtains (ks : List Nat) {was rs : List Door}
    (h : rs.map Door.curtainGranted = was.map Door.curtainGranted) :
    List.Forall₂ Republished (List.zipWith curtainLoad ks was) (List.zipWith curtainLoad ks (rs.map demandCurtain)) := by
  induction rs generalizing ks was with
  | nil =>
    rw [List.map_eq_nil_iff.mp h.symm]
    simp
  | cons r rs ih =>
    cases was with
    | nil => simp at h
    | cons x xs =>
      cases ks with
      | nil => exact .nil
      | cons k ks =>
        simp only [List.map_cons, List.cons.injEq] at h
        refine .cons ⟨rfl, rfl, ?_, ?_⟩ (ih ks h.2)
        · cases hs : isUnsealedState r.state && !r.settling <;> simp [curtainLoad, demandCurtain, hs]
        · cases hs : isUnsealedState r.state && !r.settling <;> simp [curtainLoad, demandCurtain, hs, h.1]

/-- A stage that forms its demand keeps its grant with a record, and loses it without one (R114). -/
theorem formStage_granted (now : Nat) (c : StageConfig) (row : StageCall) (st : Stage) :
    ((formStage now c row st).demand = .none ∧ (formStage now c row st).granted = false) ∨
      ((formStage now c row st).demand ≠ .none ∧ (formStage now c row st).tier ≠ none ∧
        (formStage now c row st).granted = st.granted) := by
  unfold formStage
  cases row with
  | called t => exact .inr ⟨by simp, by simp, rfl⟩
  | released immediate =>
    dsimp only
    split_ifs
    · exact .inl ⟨rfl, rfl⟩
    · exact .inl ⟨rfl, rfl⟩
    · exact .inr ⟨by simp, by simp, rfl⟩

theorem republished_stages (now : Nat) (working hold : Bool) (h : Heat) (k : Nat) (cs : List StageConfig) {was sts : List Stage}
    (hg : sts.map Stage.granted = was.map Stage.granted) :
    List.Forall₂ Republished (List.zipWith stageLoad cs was)
      (List.zipWith stageLoad cs (formStages now working hold h k cs sts)) := by
  induction cs generalizing k was sts with
  | nil => exact .nil
  | cons c cs ih =>
    cases sts with
    | nil =>
      rw [List.map_eq_nil_iff.mp hg.symm]
      exact .nil
    | cons st sts =>
      cases was with
      | nil => simp at hg
      | cons x xs =>
        simp only [List.map_cons, List.cons.injEq] at hg
        have hst := formStage_granted now c (stageCall working hold h k st.call) st
        simp only [formStages, List.zipWith_cons_cons]
        generalize formStage now c (stageCall working hold h k st.call) st = y at hst
        refine .cons ⟨rfl, rfl, fun hnone => ?_, fun hsome => ?_⟩ (ih (k + 1) hg.2)
        · rcases hst with ⟨-, hgranted⟩ | ⟨hdemand, htier, -⟩
          · simp [stageLoad, hgranted]
          · simp [stageLoad, hdemand, htier] at hnone
        · rcases hst with ⟨hdemand, -⟩ | ⟨-, -, hgranted⟩
          · simp [stageLoad, hdemand] at hsome
          · simp [stageLoad, hgranted, hg.1]

/-- A row of Table 31 with a speed has a tier. -/
theorem resolveFan1_speed (gas : GasClass) (actionSpeed : Nat) (vent : Option Effect) (minVent : Nat) (ventilates : Bool)
    (h : (resolveFan1 gas actionSpeed vent minVent ventilates).tier = none) :
    (resolveFan1 gas actionSpeed vent minVent ventilates).speed = 0 := by
  cases gas with
  | critical => cases h
  | action => cases h
  | none =>
    unfold resolveFan1 at h ⊢
    dsimp only at h ⊢
    split at h
    · cases h
    · split_ifs at h ⊢
      · rfl
      · rfl

/-- A row of Table 31 with a speed has a tier. -/
theorem resolveFan2_speed (gas : GasClass) (vent : Option Effect) (assist : Bool) (assistSpeed flow : Nat) (balancing : Int)
    (h : (resolveFan2 gas vent assist assistSpeed flow balancing).tier = none) :
    (resolveFan2 gas vent assist assistSpeed flow balancing).speed = 0 := by
  unfold resolveFan2 at h ⊢
  split at h
  · cases h
  · rename_i hgas
    rw [if_neg hgas]
    split at h
    · cases h
    · split_ifs at h ⊢
      · rfl
      · rfl

theorem republished_fan (k : FanConfig) {d : FanDemand} (f : Fan) (h : d.tier = none → d.speed = 0) :
    Republished (fanLoad k f) (fanLoad k (demandFan d f)) := by
  refine ⟨rfl, rfl, fun hnone => ?_, fun hsome => ?_⟩
  · by_cases hspeed : d.speed = 0
    · simp [fanLoad, demandFan, hspeed]
    · have htier : d.tier ≠ none := mt h hspeed
      simp [fanLoad, demandFan, hspeed, htier] at hnone
  · by_cases hspeed : d.speed = 0
    · simp [fanLoad, demandFan, hspeed] at hsome
    · simp [fanLoad, demandFan, hspeed]

end Sys2Proof.Machine
end

section
/-! SUPPORT. The load list that the units publish, against the one before the event (R154, R157, R164). -/

namespace Sys2Proof.Machine

section Published

variable (before s : State)

/-! ## The published records -/

theorem publish_channels : ∃ page bay stack, (publish before s).lighting.channels =
    chooseChannels page bay stack 0 s.cfg.lighting.channels s.lighting.channels := by
  obtain ⟨hchannels, -, -⟩ := followOccupied_kept s.clock s.cfg.lighting.vacatingHold
    (occupied (settleTraffic s.cfg.gate.vacancy s.clock before.traffic.uncertain s.traffic)) s.lighting
  exact ⟨_, _, _, congrArg (chooseChannels _ _ _ 0 _) hchannels⟩

theorem publish_docks : ∃ records : List Door, records.length = s.doors.records.length ∧ (publish before s).lighting.docks =
    alongside (fun (d : DockLight) (r : Door) => demandDock d (r.state = .openSealed)) s.lighting.docks records := by
  obtain ⟨-, hdocks, -⟩ := followOccupied_kept s.clock s.cfg.lighting.vacatingHold
    (occupied (settleTraffic s.cfg.gate.vacancy s.clock before.traffic.uncertain s.traffic)) s.lighting
  refine ⟨(settleBoost s.clock s.cfg.doors.recovery s.doors).records.map demandCurtain, ?_, ?_⟩
  · rw [List.length_map, settleBoost_records]
  · exact congrArg (fun docks => alongside _ docks _) hdocks

theorem publish_records : (publish before s).doors.records = s.doors.records.map demandCurtain :=
  congrArg (List.map demandCurtain) (settleBoost_records s.clock s.cfg.doors.recovery s.doors)

theorem publish_heat : ∃ now working hold h sts, (publish before s).heat.stages =
    formStages now working hold h 0 s.cfg.heat.stages sts ∧ sts.map Stage.granted = s.heat.stages.map Stage.granted :=
  ⟨_, _, _, _, _, rfl, judgeCallsFrom_grants _ _ _ _ _ _⟩

theorem publish_fan1 : ∃ d : FanDemand, (d.tier = none → d.speed = 0) ∧ (publish before s).air.fan1 = demandFan d s.air.fan1 :=
  ⟨_, resolveFan1_speed _ _ _ _ _, rfl⟩

theorem publish_fan2 : ∃ d : FanDemand, (d.tier = none → d.speed = 0) ∧ (publish before s).air.fan2 = demandFan d s.air.fan2 :=
  ⟨_, resolveFan2_speed _ _ _ _ _ _, rfl⟩

/-- The units publish without the allocator (R154). -/
theorem publish_setAlloc (a : Alloc) : publish before (s.setAlloc a) = (publish before s).setAlloc a := rfl

theorem loadList_setAlloc (a : Alloc) : loadList (s.setAlloc a) = loadList s := rfl

end Published

variable {s u : State}

/-- After an event in which the loads hold their grants, the units' publishing takes the grant of a load without a record, and
leaves every other one (R154). -/
theorem publish_republishes (h : SameGrants s u) (hs : ShapeOk s) (hrun : s.start.running = true) (before : State) :
    List.Forall₂ Republished (loadList s) (loadList (publish before u)) := by
  have hstart : (publish before u).start = s.start := (publish_frame before u).start.trans h.start
  obtain ⟨page, bay, stack, hchannels⟩ := publish_channels before u
  obtain ⟨records, hrecords, hdocks⟩ := publish_docks before u
  obtain ⟨now, working, hold, heat, sts, hstages, hsts⟩ := publish_heat before u
  obtain ⟨d1, htier1, hfan1⟩ := publish_fan1 before u
  obtain ⟨d2, htier2, hfan2⟩ := publish_fan2 before u
  have hlength : u.lighting.docks.length = records.length := by
    have hu := h.shape hs
    have hr : u.start.running = true := by rw [h.start]; exact hrun
    rw [hrecords, hu.docks hr, hu.doors hr]
  rw [State.cfg, h.start] at hchannels hstages
  unfold loadList
  rw [State.cfg, State.cfg, hstart, hchannels, hdocks, publish_records, hstages, hfan1, hfan2, h.fan1, h.fan2]
  have hheld := h.channels
  rw [channelGrants, channelGrants, State.cfg, h.start] at hheld
  refine List.rel_append (List.rel_append (List.rel_append (List.rel_append ?_ ?_) ?_) ?_) ?_
  · exact republished_channels page bay stack 0 _ hheld
  · exact republished_docks _ h.docks hlength
  · exact .cons (republished_fan _ _ htier1) (.cons (republished_fan _ _ htier2) .nil)
  · exact republished_curtains _ h.curtains
  · exact republished_stages now working hold heat 0 _ (hsts.trans h.stages)

/-- Published loads whose records stand are granted what they were, where no load was granted anything without a record. -/
theorem still_of_republished {l l' : List Load} (h : List.Forall₂ Republished l l')
    (hd : l'.map Load.demand = l.map Load.demand) (hn : ∀ x ∈ l, x.demand = none → x.granted = 0) :
    l'.map Load.still = l.map Load.still := by
  induction h with
  | nil => rfl
  | cons hx _ ih =>
    simp only [List.map_cons, List.cons.injEq, List.forall_mem_cons] at hd hn ⊢
    exact ⟨hx.still hd.1 hn.1, ih hd.2 hn.2⟩

/-- A fitted load without a record is granted nothing (R164). -/
theorem Fitted.without_record {g : Grants} {loads : List Load} (h : Fitted g loads) {l : Load} (hl : l ∈ loads)
    (hd : l.demand = none) : l.granted = 0 := by
  obtain ⟨k, hk⟩ := List.getElem?_of_mem hl
  have hfit := h k l hk
  rw [hd] at hfit
  exact hfit

/-- What is asked is what is granted, without the grants. -/
theorem asked_of_still {l l' : List Load} (h : l'.map Load.still = l.map Load.still) :
    l'.map Load.asked = l.map Load.asked := by
  have hasked (x : List Load) : x.map Load.asked = (x.map Load.still).map Load.asked := by
    rw [List.map_map]
    rfl
  rw [hasked l', hasked l, h]

/-- An event that withdraws or adds no record has published the loads with the grants they had (R154, R157). -/
theorem publish_still (h : SameGrants s u) (hs : ShapeOk s) (hrun : s.start.running = true) (hfit : FittedOk s) {before : State}
    (hd : demandRecords (publish before u) = demandRecords s) :
    (loadList (publish before u)).map Load.still = (loadList s).map Load.still :=
  still_of_republished (publish_republishes h hs hrun before) hd fun _ hl => (hfit hrun).without_record hl

/-- What an event asks of the allocator by its end, where that is no recomputation: what it asked for by itself, with the demand
records standing (R157). -/
theorem workFor_ne_recompute {before t : State} {work : Work} (h : workFor before work t ≠ .recompute) :
    workFor before work t = work ∧ demandRecords t = demandRecords before := by
  unfold workFor at h ⊢
  split at h
  · exact absurd rfl h
  · rename_i hsame
    rw [if_neg hsame]
    exact ⟨rfl, not_not.mp (not_or.mp hsame).2⟩

theorem workFor_recompute (before t : State) : workFor before .recompute t = .recompute := by
  unfold workFor
  split <;> rfl

end Sys2Proof.Machine
end

section
/-! SUPPORT. Outputs and budget: no output above its grant, and the loads of tiers 1 to 3 within the applied grants (R86, R89, R100, R116,
R131, R165). -/

namespace Sys2Proof.Machine

/-! ## No output above its grant -/

/-- A fan that follows its target has a speed only while RUNNING, where it moved from one that had (R128, R130). -/
theorem FanSettled.ok {now : Nat} {c : FanConfig} {f f' : Fan} (h : FanSettled f') (hm : FanMoved now c f f')
    (hidle : f.state ≠ .running → f.present = 0) : FanOk f' := by
  obtain ⟨htarget, hstate⟩ := h
  unfold FanMoved at hm
  have hpresent : f'.state ≠ .running → f'.present = 0 := by
    intro hne
    cases hs : f'.state with
    | running => exact absurd hs hne
    | stopped =>
      rw [hs] at hm
      obtain ⟨hwas, hsame, -⟩ := hm
      rw [hsame]
      exact hidle (by simp [hwas])
    | coasting =>
      rw [hs] at hm
      rcases hm with ⟨hwas, hsame, -⟩ | ⟨hzero, -⟩
      · rw [hsame]
        exact hidle (by simp [hwas])
      · exact hzero
  refine ⟨htarget, ?_, hpresent⟩
  by_cases hs : f'.state = .running
  · rw [hs] at hstate
    obtain ⟨-, -, hle, -⟩ := hstate
    exact hle
  · rw [hpresent hs]
    exact Nat.zero_le _

/-- The end of an event leaves no output above its grant. -/
theorem EventFrame.outputsOk {before s t : State} (h : EventFrame before s t) (hshape : ShapeOk t) (h1 : FanOk s.air.fan1)
    (h2 : FanOk s.air.fan2) : OutputsOk t where
  channels := fun c hc => by
    obtain ⟨htarget, hpresent, -⟩ := h.lights c hc
    exact ⟨htarget, hpresent⟩
  docks := fun d hd hon => by
    rw [h.docks d hd] at hon
    exact Bool.and_eq_true_iff.mp hon
  curtains := fun d hd hon => by
    rw [h.curtains d hd] at hon
    exact Bool.and_eq_true_iff.mp hon
  stages := fun hrun st hst hon => by
    obtain ⟨k, hk⟩ := List.getElem?_of_mem hst
    have hlt : k < s.cfg.heat.stages.length := by
      rw [State.cfg, ← h.start, ← hshape.stages hrun]
      exact (List.getElem?_eq_some_iff.mp hk).1
    obtain ⟨-, hcut, -⟩ := h.settled k _ st (List.getElem?_eq_getElem hlt) hk
    exact Bool.eq_true_of_not_eq_false fun hno => hcut ⟨hon, hno⟩
  fan1 := h.fan1.1.ok h.fan1.2 h1.2.2
  fan2 := h.fan2.1.ok h.fan2.2 h2.2.2

/-- A load of a running station is at or below its grant. -/
theorem OutputsOk.present_le {s : State} (h : OutputsOk s) (hrun : s.start.running = true) :
    ∀ l ∈ loadList s, l.present ≤ l.granted := by
  have hflag {on granted : Bool} (himp : on = true → granted = true) : on.toNat ≤ granted.toNat := by
    cases on with
    | false => exact Nat.zero_le _
    | true => rw [himp rfl]
  have hzip {α β : Type} {load : α → β → Load} {P : β → Prop}
      (hload : ∀ a b, P b → (load a b).present ≤ (load a b).granted) {as : List α} {bs : List β}
      (hP : ∀ b ∈ bs, P b) : ∀ l ∈ List.zipWith load as bs, l.present ≤ l.granted := by
    intro l hl
    obtain ⟨i, hi⟩ := List.getElem?_of_mem hl
    obtain ⟨a, b, -, hb, rfl⟩ := List.getElem?_zipWith_eq_some.mp hi
    exact hload a b (hP b (List.mem_of_getElem? hb))
  have hfan {f : Fan} (hok : FanOk f) (k : FanConfig) : (fanLoad k f).present ≤ (fanLoad k f).granted := by
    obtain ⟨htarget, hpresent, -⟩ := hok
    exact hpresent.trans (htarget.le.trans (Nat.min_le_right _ _))
  simp only [loadList, List.mem_append, or_imp, forall_and]
  refine ⟨⟨⟨⟨hzip (P := ChannelOk) (fun _ _ hok => ?_) h.channels, ?_⟩, ?_⟩, ?_⟩, ?_⟩
  · obtain ⟨htarget, hpresent⟩ := hok
    exact hpresent.trans (htarget.le.trans (Nat.min_le_right _ _))
  · exact hzip (fun _ _ himp => hflag fun hon => (himp hon).2) h.docks
  · simp only [List.forall_mem_cons, List.not_mem_nil, false_implies, implies_true, and_true]
    exact ⟨hfan h.fan1 _, hfan h.fan2 _⟩
  · exact hzip (fun _ _ himp => hflag fun hon => (himp hon).2) h.curtains
  · exact hzip (fun _ _ himp => hflag himp) (h.stages hrun)

/-! ## The budget -/

theorem nameplate_mono (fitting : Fitting) (rated : Nat) {x y : Nat} (h : x ≤ y) :
    nameplate fitting rated x ≤ nameplate fitting rated y := by
  cases fitting with
  | dimmable => exact Nat.div_le_div_right (Nat.mul_le_mul_left _ h)
  | stepped => exact Nat.div_le_div_right (Nat.mul_le_mul_left _ (Nat.mul_le_mul (Nat.mul_le_mul h h) h))
  | whole =>
    simp only [nameplate]
    split_ifs with hx hy
    · exact Nat.le_refl _
    · exact Nat.zero_le _
    · omega
    · exact Nat.le_refl _

/-- A fitted load draws no more than was left of its tier's budget (R166). -/
theorem LoadFitted.power_le {left desired : Nat} {l : Load} (h : LoadFitted left desired l) :
    nameplate l.fitting l.rated l.granted ≤ left := by
  unfold LoadFitted at h
  cases hf : l.fitting with
  | dimmable =>
    rw [hf] at h
    obtain ⟨-, hpower, -⟩ := h
    exact hpower
  | stepped =>
    rw [hf] at h
    obtain ⟨-, -, hpower, -⟩ := h
    exact hpower
  | whole =>
    rw [hf] at h
    dsimp only at h
    rw [h]
    split
    · simpa [nameplate] using ‹_›
    · simp [nameplate]

/-- The loads of a tier draw no more, as granted, than the tier's budget (R165). -/
theorem Fitted.draw_le {g : Grants} {loads : List Load} (h : Fitted g loads) {t : Tier} (ht : t ≠ 0) :
    grantedDraw t loads ≤ tierBudget g loads t := by
  have hprefix (k : Nat) : grantedDraw t (loads.take k) ≤ tierBudget g loads t := by
    induction k with
    | zero => simp [grantedDraw]
    | succ k ih =>
      have happend (a b : List Load) : grantedDraw t (a ++ b) = grantedDraw t a + grantedDraw t b := by
        simp [grantedDraw]
      rw [List.take_add_one, happend]
      cases hl : loads[k]? with
      | none => simpa [grantedDraw] using ih
      | some l =>
        have hfit := h k l hl
        rw [Option.toList_some, grantedDraw_cons]
        by_cases hin : inTier t l = true
        · obtain ⟨d, hd, htier⟩ : ∃ d, l.demand = some d ∧ d.tier = t := by
            cases hd : l.demand with
            | none => simp [inTier, hd] at hin
            | some d => exact ⟨d, rfl, by simpa [inTier, hd] using hin⟩
          rw [hd] at hfit
          dsimp only at hfit
          rw [htier, if_neg ht] at hfit
          have hpower := hfit.power_le
          rw [if_pos hin, show grantedDraw t [] = 0 from rfl]
          omega
        · rw [if_neg hin]
          simpa [grantedDraw] using ih
  have hall := hprefix loads.length
  rwa [List.take_length] at hall

/-- The loads of tiers 1 to 3, tier by tier. -/
theorem budgetDraw_granted (loads : List Load) :
    budgetDraw Load.granted loads = grantedDraw 1 loads + grantedDraw 2 loads + grantedDraw 3 loads := by
  have hcons (l : Load) (ls : List Load) : budgetDraw Load.granted (l :: ls) =
      (if inBudget l then nameplate l.fitting l.rated l.granted else 0) + budgetDraw Load.granted ls := by
    unfold budgetDraw
    by_cases h : inBudget l = true <;> simp [h]
  induction loads with
  | nil => rfl
  | cons l ls ih =>
    rw [hcons, ih, grantedDraw_cons, grantedDraw_cons, grantedDraw_cons]
    have hone : (if inBudget l then nameplate l.fitting l.rated l.granted else 0) =
        (if inTier 1 l then nameplate l.fitting l.rated l.granted else 0) +
        (if inTier 2 l then nameplate l.fitting l.rated l.granted else 0) +
        (if inTier 3 l then nameplate l.fitting l.rated l.granted else 0) := by
      unfold inBudget inTier
      cases l.demand with
      | none => rfl
      | some d =>
        obtain ⟨setting, tier⟩ := d
        fin_cases tier <;> simp
    omega

/-- Fitted loads of tiers 1 to 3 stay within the applied grants (R165). -/
theorem Fitted.budget_le {g : Grants} {loads : List Load} (h : Fitted g loads) :
    budgetDraw Load.granted loads ≤ g.total := by
  have h1 : grantedDraw 1 loads ≤ g.g1 := h.draw_le (by decide)
  have h2 : grantedDraw 2 loads ≤ g.g2 + (g.g1 - grantedDraw 1 loads) := h.draw_le (by decide)
  have h3 : grantedDraw 3 loads ≤ g.g3 + (g.g2 + (g.g1 - grantedDraw 1 loads) - grantedDraw 2 loads) := h.draw_le (by decide)
  rw [budgetDraw_granted, Grants.total]
  omega

/-- Loads fitted, with no output above its grant, stay within the applied grants as granted and as energised (R165, R167). -/
theorem budgetOk_of_fitted {s : State} (hfit : FittedOk s) (hout : OutputsOk s) : BudgetOk s where
  granted := fun hrun => (hfit hrun).budget_le
  energised := fun hrun => by
    refine Nat.le_trans ?_ (hfit hrun).budget_le
    refine List.sum_le_sum fun l hl => nameplate_mono _ _ ?_
    exact hout.present_le hrun l (List.mem_filter.mp hl).1

end Sys2Proof.Machine
end

section
/-! SUPPORT. Proofs of O59: every step keeps the loads granted what the applied grants give them, and the load list in the order of
Table 38 (R154, R155, R161, R164 to R167). -/

namespace Sys2Proof.Machine

/-! ## Every step keeps the loads sound -/

/-- Requests, grants and outputs of the loads are sound; the budget follows from the last two (`budgetOk_of_fitted`). -/
structure LoadsSound (s : State) : Prop where
  grants : GrantsOk s
  outputs : OutputsOk s
  requests : RequestsOk s
  fitted : FittedOk s

variable {s t u : State}

theorem LoadsSound.stands (h : LoadsSound s) (k : Stands s t) : LoadsSound t := by
  have halloc := k.alloc
  simp only [Alloc.settlement, Prod.mk.injEq] at halloc
  obtain ⟨hrequests, hcomputed, happlied, hdue, hterm⟩ := halloc
  exact {
    grants := h.grants.of_alloc hcomputed happlied hdue
    outputs := k.outputs h.outputs
    requests := fun hrun => by
      rw [hrequests, hterm, formRequests_congr (asked_of_still k.loads)]
      exact h.requests (k.start ▸ hrun)
    fitted := fun hrun => by
      rw [happlied]
      exact (h.fitted (k.start ▸ hrun)).congr k.loads }

/-- The end of an event in which the loads held their grants (R157, R161, R164). -/
theorem LoadsSound.event (h : LoadsSound s) (hs : ShapeOk s) (hrun : s.start.running = true) (k : SameGrants s u) {work : Work}
    {a : Alloc} (ha : AllocReady u.alloc work a) : LoadsSound (finish s work (u.setAlloc a)) := by
  have hshape : ShapeOk (u.setAlloc a) := (k.shape hs).of_counts rfl rfl rfl rfl rfl rfl rfl
  have hstart : (u.setAlloc a).start = s.start := k.start
  have hfan1 : (u.setAlloc a).air.fan1 = s.air.fan1 := k.fan1
  have hfan2 : (u.setAlloc a).air.fan2 = s.air.fan2 := k.fan2
  have halloc : (u.setAlloc a).alloc = a := rfl
  have hstill (hd : demandRecords (publish s (u.setAlloc a)) = demandRecords s) :
      (loadList (publish s (u.setAlloc a))).map Load.still = (loadList s).map Load.still := by
    rw [publish_setAlloc, demandRecords, loadList_setAlloc] at hd
    rw [publish_setAlloc, loadList_setAlloc]
    exact publish_still k hs hrun h.fitted hd
  obtain ⟨hgrants, hrequests, happlied⟩ := ha
  rw [k.alloc, ← halloc] at hgrants hrequests happlied
  generalize u.setAlloc a = v at hshape hstart hfan1 hfan2 hstill hgrants hrequests happlied ⊢
  have hpublished : (publish s v).alloc = v.alloc := (publish_frame s v).alloc
  have hready : GrantsOk v := by
    rcases hgrants with ⟨heq, -⟩ | ⟨hcomputed, hsame, hdue⟩
    · exact .of_eq heq
    · exact h.grants.of_alloc hcomputed hsame hdue
  refine ⟨finish_grantsOk s work hready, ?_, finish_requests s work v fun hwork => ?_,
    finish_fitted s work v hshape (by rw [hstart]; exact hrun) fun hwork => ?_⟩
  · refine (finish_frame s work v).outputsOk (finish_shape s work hshape) ?_ ?_
    · rw [hfan1]
      exact h.outputs.fan1
    · rw [hfan2]
      exact h.outputs.fan2
  · obtain ⟨hown, hd⟩ := workFor_ne_recompute hwork
    obtain ⟨hsame, hterm⟩ := hrequests (hown ▸ hwork)
    rw [hpublished, hsame, hterm, formRequests_congr (asked_of_still (hstill hd))]
    exact h.requests hrun
  · obtain ⟨hown, hd⟩ := workFor_ne_recompute (by rw [hwork]; decide)
    rw [hpublished, happlied (hown ▸ hwork)]
    exact (h.fitted hrun).congr (hstill hd)

/-- A fan at the end of a start sequence has no speed (R136). -/
theorem freshFan_ok (now : Nat) (c : FanConfig) : FanOk (freshFan now c) := ⟨rfl, Nat.le_refl _, fun _ => rfl⟩

/-- A start sequence ends with a recomputation (R157, R174). -/
theorem loadsSound_endStart (r : StartReading) (s : State) : LoadsSound (endStart r s) := by
  have hready := unitsReady_startedBlocks r s
  have hfirst (x : State) : (firstLink x).air = x.air ∧ (firstLink x).alloc = x.alloc := by
    unfold firstLink
    split <;> exact ⟨rfl, rfl⟩
  have hair : FanOk (startedBlocks r s).air.fan1 ∧ FanOk (startedBlocks r s).air.fan2 := by
    unfold startedBlocks
    dsimp only
    rw [reformHeat_eq]
    dsimp only
    rw [(hfirst _).1]
    exact ⟨freshFan_ok _ _, freshFan_ok _ _⟩
  have halloc : (startedBlocks r s).alloc.applied = (startedBlocks r s).alloc.computed := by
    unfold startedBlocks
    dsimp only
    rw [reformHeat_eq]
    dsimp only
    rw [(hfirst _).2]
    rfl
  have hwork (x : State) : workFor x .recompute (publish x x) = .recompute := workFor_recompute _ _
  unfold endStart
  generalize startedBlocks r s = x at hready hair halloc
  exact {
    grants := finish_grantsOk x .recompute (.of_eq halloc)
    outputs := (finish_frame x .recompute x).outputsOk (finish_shape x .recompute hready.shape) hair.1 hair.2
    requests := finish_requests x .recompute x fun hne => absurd (hwork x) hne
    fitted := finish_fitted x .recompute x hready.shape hready.running fun hne => absurd ((hwork x).symm.trans hne) (by decide) }

/-- What a command can do keeps the loads sound. -/
theorem LoadStep.loadsSound (k : LoadStep s t) (hs : ShapeOk s) (h : LoadsSound s) : LoadsSound t := by
  cases k with
  | stands hstands => exact h.stands hstands
  | event hrun hsame ha => exact h.event hs hrun hsame ha
  | rests hrest hgrants houtputs =>
    have hno {P : Prop} (hrun : t.start.running = true) : P := absurd hrun (by simp [hrest])
    exact ⟨hgrants, houtputs, fun hrun => hno hrun, fun hrun => hno hrun⟩
  | starts r => exact loadsSound_endStart r s

/-- A step of the machine keeps the loads sound. -/
theorem step_loadsSound (hstep : step s = .next t) (hs : ShapeOk s) (h : LoadsSound s) : LoadsSound t := by
  rcases step_loadStep hstep with hstands | ⟨rest, hload⟩
  · exact h.stands hstands
  · exact hload.loadsSound (hs.of_counts rfl rfl rfl rfl rfl rfl rfl) (h.stands (stands_setPending s rest))

/-! ## The load list -/

/-- The element of a part of a list, at its place in the whole. -/
theorem getElem?_segment {α : Type} {pre seg : List α} (post : List α) {i : Nat} {x : α} (h : seg[i]? = some x) :
    (pre ++ seg ++ post)[pre.length + i]? = some x := by
  have hi : i < seg.length := (List.getElem?_eq_some_iff.mp h).1
  rw [List.append_assoc, List.getElem?_append_right (Nat.le_add_right _ _), Nat.add_sub_cancel_left,
    List.getElem?_append_left hi, h]

theorem toNat_eq_flag (b : Bool) : b.toNat = if b then 1 else 0 := Bool.cond_eq_ite b 1 0

/-- The places of the four channels, the dock lights, the two fans, the curtains and the stages (Table 38). -/
theorem loadList_places (hs : ShapeOk s) (hrun : s.start.running = true) :
    let n := s.cfg.doors.curtains.length
    (loadList s).length = 4 + n + 2 + n + s.cfg.heat.stages.length ∧
    (∀ (i : Nat) (k : ChannelConfig) (ch : Channel), s.cfg.lighting.channels[i]? = some k → s.lighting.channels[i]? = some ch →
      (loadList s)[i]? = some (channelLoad k ch)) ∧
    (∀ (i rated : Nat) (d : DockLight), s.cfg.doors.docks[i]? = some rated → s.lighting.docks[i]? = some d →
      (loadList s)[4 + i]? = some (dockLoad rated d)) ∧
    (loadList s)[4 + n]? = some (fanLoad s.cfg.air.fan1 s.air.fan1) ∧
    (loadList s)[4 + n + 1]? = some (fanLoad s.cfg.air.fan2 s.air.fan2) ∧
    (∀ (i rated : Nat) (d : Door), s.cfg.doors.curtains[i]? = some rated → s.doors.records[i]? = some d →
      (loadList s)[4 + n + 2 + i]? = some (curtainLoad rated d)) ∧
    (∀ (i : Nat) (k : StageConfig) (st : Stage), s.cfg.heat.stages[i]? = some k → s.heat.stages[i]? = some st →
      (loadList s)[4 + n + 2 + n + i]? = some (stageLoad k st)) := by
  intro n
  have hzip {α β : Type} {load : α → β → Load} {as : List α} {bs : List β} {i : Nat} {a : α} {b : β} (ha : as[i]? = some a)
      (hb : bs[i]? = some b) : (List.zipWith load as bs)[i]? = some (load a b) := by
    rw [List.getElem?_zipWith, ha, hb]
  have hchannels : (List.zipWith channelLoad s.cfg.lighting.channels s.lighting.channels).length = 4 := by
    rw [List.length_zipWith, hs.channels, hs.channelConfigs]
    rfl
  have hdocks : (List.zipWith dockLoad s.cfg.doors.docks s.lighting.docks).length = n := by
    rw [List.length_zipWith, hs.docks hrun, hs.doorConfigs, Nat.min_self]
    rfl
  have hcurtains : (List.zipWith curtainLoad s.cfg.doors.curtains s.doors.records).length = n := by
    rw [List.length_zipWith, hs.doors hrun]
    exact Nat.min_self _
  have hstages : (List.zipWith stageLoad s.cfg.heat.stages s.heat.stages).length = s.cfg.heat.stages.length := by
    rw [List.length_zipWith, hs.stages hrun, Nat.min_self]
  have hfans (i : Nat) (l : Load) (h : [fanLoad s.cfg.air.fan1 s.air.fan1, fanLoad s.cfg.air.fan2 s.air.fan2][i]? = some l) :
      (loadList s)[4 + n + i]? = some l := by
    have hplace := getElem?_segment (pre := List.zipWith channelLoad s.cfg.lighting.channels s.lighting.channels ++
        List.zipWith dockLoad s.cfg.doors.docks s.lighting.docks)
      (List.zipWith curtainLoad s.cfg.doors.curtains s.doors.records ++
        List.zipWith stageLoad s.cfg.heat.stages s.heat.stages) h
    rw [List.length_append, hchannels, hdocks] at hplace
    rw [loadList, List.append_assoc _ (List.zipWith curtainLoad _ _)]
    exact hplace
  refine ⟨?_, fun i k ch hk hch => ?_, fun i rated d hk hd => ?_, hfans 0 _ rfl, hfans 1 _ rfl, fun i rated d hk hd => ?_,
    fun i k st hk hst => ?_⟩
  · simp only [loadList, List.length_append, hchannels, hdocks, hcurtains, hstages, List.length_cons, List.length_nil]
  · have hplace := getElem?_segment (pre := []) (List.zipWith dockLoad s.cfg.doors.docks s.lighting.docks ++
      [fanLoad s.cfg.air.fan1 s.air.fan1, fanLoad s.cfg.air.fan2 s.air.fan2] ++
      List.zipWith curtainLoad s.cfg.doors.curtains s.doors.records ++
      List.zipWith stageLoad s.cfg.heat.stages s.heat.stages) (hzip (load := channelLoad) hk hch)
    simpa [loadList, List.append_assoc] using hplace
  · have hplace := getElem?_segment (pre := List.zipWith channelLoad s.cfg.lighting.channels s.lighting.channels)
      ([fanLoad s.cfg.air.fan1 s.air.fan1, fanLoad s.cfg.air.fan2 s.air.fan2] ++
      List.zipWith curtainLoad s.cfg.doors.curtains s.doors.records ++
      List.zipWith stageLoad s.cfg.heat.stages s.heat.stages) (hzip (load := dockLoad) hk hd)
    rw [hchannels] at hplace
    simpa [loadList, List.append_assoc] using hplace
  · have hplace := getElem?_segment (pre := List.zipWith channelLoad s.cfg.lighting.channels s.lighting.channels ++
        List.zipWith dockLoad s.cfg.doors.docks s.lighting.docks ++
        [fanLoad s.cfg.air.fan1 s.air.fan1, fanLoad s.cfg.air.fan2 s.air.fan2])
      (List.zipWith stageLoad s.cfg.heat.stages s.heat.stages) (hzip (load := curtainLoad) hk hd)
    rw [List.length_append, List.length_append, hchannels, hdocks] at hplace
    exact hplace
  · have hplace := getElem?_segment (pre := List.zipWith channelLoad s.cfg.lighting.channels s.lighting.channels ++
        List.zipWith dockLoad s.cfg.doors.docks s.lighting.docks ++
        [fanLoad s.cfg.air.fan1 s.air.fan1, fanLoad s.cfg.air.fan2 s.air.fan2] ++
        List.zipWith curtainLoad s.cfg.doors.curtains s.doors.records) [] (hzip (load := stageLoad) hk hst)
    rw [List.length_append, List.length_append, List.length_append, hchannels, hdocks, hcurtains, List.append_nil] at hplace
    exact hplace

/-- Settles O59: the load list is read off place by place, and every step keeps the loads sound (`step_loadsSound`), within the budget
(`budgetOk_of_fitted`). -/
theorem loadInvariantsKept : Obligations.LoadInvariantsKept := by
  refine ⟨fun rated x => ⟨rfl, ?_, rfl⟩, fun loads term => rfl, fun s hs hrun => ?_,
    fun s t _ hs _ hgrants hout hreq _ hfit hstep => ?_⟩
  · rw [pow_succ, pow_two]
    rfl
  · obtain ⟨hlength, hchannels, hdocks, hfan1, hfan2, hcurtains, hstages⟩ := loadList_places hs hrun
    refine ⟨hlength, hchannels, fun i rated d hk hd => ?_, hfan1, hfan2, fun i rated d hk hd => ?_, fun i k st hk hst => ?_⟩
    · rw [hdocks i rated d hk hd, dockLoad, toNat_eq_flag, toNat_eq_flag]
    · rw [hcurtains i rated d hk hd, curtainLoad, toNat_eq_flag, toNat_eq_flag]
    · rw [hstages i k st hk hst, stageLoad, toNat_eq_flag, toNat_eq_flag]
  · have ht := step_loadsSound hstep hs ⟨hgrants, hout, hreq, hfit⟩
    exact ⟨ht.grants, ht.outputs, ht.requests, budgetOk_of_fitted ht.fitted ht.outputs, ht.fitted⟩

end Sys2Proof.Machine
end

section
/-! SUPPORT. The doors' functions, each by its cases: the open time, a state entered, settling, the debounced changes and the two
inputs' effects on the state (R93 to R96, R98, R99, R103). -/

namespace Sys2Proof.Machine

section Doors

variable {now limit : Nat} {d : Door} {st : DoorState}

/-! ## Open time -/

theorem gatherOpen_of_unmarked (h : d.openMark = none) : gatherOpen now d = d := by simp [gatherOpen, h]

theorem gatherOpen_of_marked {m : Nat} (h : d.openMark = some m) : gatherOpen now d = { d with
    openSeconds := min 4294967295 (d.openSeconds + (d.remainder + (now - m)) / 1000)
    remainder := (d.remainder + (now - m)) % 1000, openMark := some now } := by simp [gatherOpen, h]

theorem advanceOpenSecond_of_marked {m : Nat} (h : d.openMark = some m) : advanceOpenSecond now d = { d with
    openSeconds := min 4294967295 (d.openSeconds + 1), remainder := d.remainder + (now - m) - 1000
    openMark := some now } := by simp [advanceOpenSecond, h]

theorem gatherOpen_chatter (window : List Nat) :
    gatherOpen now { d with chatter := window } = { gatherOpen now d with chatter := window } := by
  unfold gatherOpen
  dsimp only
  split <;> rfl

/-! ## A state entered -/

/-- From outside the open states everything is set afresh (R94, R96). -/
theorem enterDoorState_of_shut (h : isOpenState d.state = false) : enterDoorState now limit st d = { d with
    state := st
    openSince := if isOpenState st then some now else none
    openMark := if isOpenState st then some now else none
    holdSince := if st = .openUnsealed ∧ limit ≠ 0 then some now else none } := by simp [enterDoorState, h]

/-- Between two open states the open time goes on (R95). -/
theorem enterDoorState_of_open (h : isOpenState d.state = true) (hst : isOpenState st = true) :
    enterDoorState now limit st d = { d with
      state := st, holdSince := if st = .openUnsealed ∧ limit ≠ 0 then some now else none } := by
  simp [enterDoorState, h, hst]

/-- A state outside the open ones ends the open time, gathered up to now, and stops the hold timer (R94, R96). -/
theorem enterDoorState_shut (hst : isOpenState st = false) : enterDoorState now limit st d =
    { (if isOpenState d.state then gatherOpen now d else d) with
      state := st, openSince := none, openMark := none, holdSince := none } := by
  have hne : st ≠ .openUnsealed := by rintro rfl; cases hst
  simp [enterDoorState, hst, hne]

/-- The state taken from the levels by a door outside the open states (R93, R99). -/
theorem enterDoorState_levels {isOpen isPresent : Bool} (h : isOpenState d.state = false)
    (hopen : d.contact.level = some true ↔ isOpen = true) (hpresent : d.trailer.level = some true ↔ isPresent = true) :
    enterDoorState now limit (stateFromLevels d) d = { d with
      state := if isOpen then (if isPresent then .openSealed else .openUnsealed) else .closed
      openSince := if isOpen then some now else none
      openMark := if isOpen then some now else none
      holdSince := if isOpen = true ∧ isPresent = false ∧ limit ≠ 0 then some now else none } := by
  have hlevels : stateFromLevels d = if isOpen then (if isPresent then .openSealed else .openUnsealed) else .closed := by
    simp only [stateFromLevels, hopen, hpresent]
  rw [enterDoorState_of_shut h, hlevels]
  cases isOpen <;> cases isPresent <;> simp [isOpenState]

/-! ## What a change of state leaves -/

/-- The fields that a change of state leaves: the inputs, the settling flag and the chatter window. -/
def Door.still (d : Door) : Debounced × Debounced × Bool × List Nat := (d.contact, d.trailer, d.settling, d.chatter)

theorem Door.still_eq_iff {r : Door} : r.still = d.still ↔
    r.contact = d.contact ∧ r.trailer = d.trailer ∧ r.settling = d.settling ∧ r.chatter = d.chatter := by
  simp [Door.still]

theorem enterDoorState_still : (enterDoorState now limit st d).still = d.still := by
  unfold enterDoorState gatherOpen
  dsimp only
  (repeat' split) <;> rfl

theorem contactAct_still (isOpen : Bool) : (contactAct now limit isOpen d).still = d.still := by
  unfold contactAct
  split_ifs
  · exact enterDoorState_still (limit := limit)
  · rfl
  · exact enterDoorState_still
  · rfl

theorem trailerAct_still (isPresent : Bool) : (trailerAct now limit isPresent d).still = d.still := by
  unfold trailerAct
  split_ifs
  · exact enterDoorState_still
  · rfl
  · exact enterDoorState_still
  · rfl

/-! ## Settling -/

theorem settleDoor_of_unknown (h : d.contact.level = none ∨ d.trailer.level = none) : settleDoor now limit d = d := by
  rcases h with h | h <;> simp [settleDoor, h]

theorem settleDoor_of_levels {isOpen isPresent : Bool} (h : isOpenState d.state = false)
    (hcontact : d.contact.level = some isOpen) (htrailer : d.trailer.level = some isPresent) :
    settleDoor now limit d = { d with
      settling := false
      state := if isOpen then (if isPresent then .openSealed else .openUnsealed) else .closed
      openSince := if isOpen then some now else none
      openMark := if isOpen then some now else none
      holdSince := if isOpen = true ∧ isPresent = false ∧ limit ≠ 0 then some now else none } := by
  have hsettle : settleDoor now limit d = { enterDoorState now limit (stateFromLevels d) d with settling := false } :=
    if_pos ⟨by simp [hcontact], by simp [htrailer]⟩
  rw [hsettle, enterDoorState_levels (isOpen := isOpen) (isPresent := isPresent) h (by simp [hcontact]) (by simp [htrailer])]

theorem settleDoor_inputs : (settleDoor now limit d).contact = d.contact ∧ (settleDoor now limit d).trailer = d.trailer := by
  obtain ⟨hcontact, htrailer, -⟩ := Door.still_eq_iff.mp
    (enterDoorState_still (now := now) (limit := limit) (st := stateFromLevels d) (d := d))
  unfold settleDoor
  split
  · exact ⟨hcontact, htrailer⟩
  · exact ⟨rfl, rfl⟩

theorem takeFirst_eq (level : Bool) (i : Debounced) :
    takeFirst level i = if i.level = none then { i with level := some level } else i := rfl

/-- An input that is ready to settle with a level has it after its first level is taken (R93). -/
theorem takeFirst_level {level : Bool} {i : Debounced}
    (h : i.level = some level ∨ (i.level = none ∧ i.raw = level ∧ i.since + 500 ≤ now)) :
    (takeFirst level i).level = some level := by
  rw [takeFirst_eq]
  rcases h with h | ⟨h, -⟩ <;> simp [h]

/-! ## A debounced change -/

section Change

variable {act : Door → Door}

theorem debouncedChange_of_settling (h : d.settling = true) : debouncedChange now limit act d = settleDoor now limit d := if_pos h

theorem debouncedChange_of_fault (hsettled : d.settling = false) (h : d.state = .fault) :
    debouncedChange now limit act d = { d with stableSince := some now } := by simp [debouncedChange, hsettled, h]

/-- The seventh change within 30 s (R98). -/
theorem debouncedChange_of_seventh (hsettled : d.settling = false) (h : d.state ≠ .fault)
    (hseven : 7 ≤ (chatterAfter now d.chatter).length) : debouncedChange now limit act d =
      { (if isOpenState d.state then gatherOpen now d else d) with
        state := .fault, openSince := none, openMark := none, holdSince := none, chatter := []
        stableSince := some now } := by
  have hfault : debouncedChange now limit act d = enterDoorFault now d := by simp [debouncedChange, hsettled, h, hseven]
  rw [hfault, enterDoorFault, enterDoorState_shut rfl]

theorem debouncedChange_of_few (hsettled : d.settling = false) (h : d.state ≠ .fault)
    (hfew : (chatterAfter now d.chatter).length < 7) :
    debouncedChange now limit act d = act { d with chatter := chatterAfter now d.chatter } := by
  simp [debouncedChange, hsettled, h, Nat.not_le.mpr hfew]

/-- A debounced change stores its own level alone (R93). -/
theorem debouncedChange_inputs (hact : ∀ r, (act r).still = r.still) :
    (debouncedChange now limit act d).contact = d.contact ∧ (debouncedChange now limit act d).trailer = d.trailer := by
  unfold debouncedChange
  dsimp only
  split_ifs
  · exact settleDoor_inputs
  · exact ⟨rfl, rfl⟩
  · obtain ⟨hcontact, htrailer, -⟩ := Door.still_eq_iff.mp (enterDoorState_still (now := now) (limit := 0) (st := .fault) (d := d))
    exact ⟨hcontact, htrailer⟩
  · obtain ⟨hcontact, htrailer, -⟩ := Door.still_eq_iff.mp (hact { d with chatter := chatterAfter now d.chatter })
    exact ⟨hcontact, htrailer⟩

end Change

@[simp] theorem contactChange_trailer (isOpen : Bool) : (contactChange now limit isOpen d).trailer = d.trailer :=
  (debouncedChange_inputs fun _ => contactAct_still isOpen).2

@[simp] theorem trailerChange_contact (isPresent : Bool) : (trailerChange now limit isPresent d).contact = d.contact :=
  (debouncedChange_inputs fun _ => trailerAct_still isPresent).1

section Settled

/-! A door that is not settling, its own new level stored (R93 to R95, R98, R99). -/

variable (isOpen isPresent : Bool) (hsettled : d.settling = false)

include hsettled

theorem contactChange_of_fault (h : d.state = .fault) : contactChange now limit isOpen d =
    { d with contact := d.contact.take isOpen, stableSince := some now } := debouncedChange_of_fault hsettled h

theorem trailerChange_of_fault (h : d.state = .fault) : trailerChange now limit isPresent d =
    { d with trailer := d.trailer.take isPresent, stableSince := some now } := debouncedChange_of_fault hsettled h

theorem contactChange_of_few (h : d.state ≠ .fault) (hfew : (chatterAfter now d.chatter).length < 7) :
    contactChange now limit isOpen d = contactAct now limit isOpen { d with
      contact := d.contact.take isOpen, chatter := chatterAfter now d.chatter } :=
  debouncedChange_of_few (d := { d with contact := d.contact.take isOpen }) hsettled h hfew

theorem trailerChange_of_few (h : d.state ≠ .fault) (hfew : (chatterAfter now d.chatter).length < 7) :
    trailerChange now limit isPresent d = trailerAct now limit isPresent { d with
      trailer := d.trailer.take isPresent, chatter := chatterAfter now d.chatter } :=
  debouncedChange_of_few (d := { d with trailer := d.trailer.take isPresent }) hsettled h hfew

end Settled

theorem changeDue_iff (i : Debounced) : changeDue now i = true ↔ i.level ≠ some i.raw ∧ i.since + 500 ≤ now := by
  rw [changeDue, admits_stable_iff]
  simp

/-- The trailer sensor's change follows the contact's where it is due at the same instant (R95). -/
theorem contactFirst_eq (isOpen : Bool) : contactFirst now limit isOpen d =
    if d.trailer.level ≠ some d.trailer.raw ∧ d.trailer.since + 500 ≤ now then
      trailerChange now limit d.trailer.raw (contactChange now limit isOpen d)
    else contactChange now limit isOpen d := by
  simp only [contactFirst, contactChange_trailer, changeDue_iff]

/-- The contact's change follows the trailer sensor's where it is due at the same instant (R95). -/
theorem trailerFirst_eq (isPresent : Bool) : trailerFirst now limit isPresent d =
    if d.contact.level ≠ some d.contact.raw ∧ d.contact.since + 500 ≤ now then
      contactChange now limit d.contact.raw (trailerChange now limit isPresent d)
    else trailerChange now limit isPresent d := by
  simp only [trailerFirst, trailerChange_contact, changeDue_iff]

/-! ## The two inputs' effects on the state -/

/-- A CLOSED door that opens (R94). -/
theorem contactAct_opens {isPresent : Bool} (h : d.state = .closed) (hcontact : d.contact.level = some true)
    (hpresent : d.trailer.level = some true ↔ isPresent = true) : contactAct now limit true d = { d with
      cycles := min 65535 (d.cycles + 1)
      state := if isPresent then .openSealed else .openUnsealed, openSince := some now, openMark := some now
      holdSince := if isPresent = false ∧ limit ≠ 0 then some now else none } := by
  have hact : contactAct now limit true d =
      { enterDoorState now limit (stateFromLevels d) d with cycles := min 65535 (d.cycles + 1) } := by simp [contactAct, h]
  rw [hact, enterDoorState_levels (isOpen := true) (isPresent := isPresent) (by rw [h]; rfl) (by simp [hcontact]) hpresent]
  simp

theorem contactAct_closes (h : isOpenState d.state = true) : contactAct now limit false d = { gatherOpen now d with
    state := .closed, openSince := none, openMark := none, holdSince := none } := by
  have hact : contactAct now limit false d = enterDoorState now limit .closed d := by simp [contactAct, h]
  rw [hact, enterDoorState_shut rfl, if_pos h]

theorem contactAct_of_same {isOpen : Bool} (h : isOpenState d.state = isOpen) : contactAct now limit isOpen d = d := by
  cases isOpen with
  | true =>
    have hopen : d.state ≠ .closed := by
      intro hclosed
      simp [hclosed, isOpenState] at h
    simp [contactAct, hopen]
  | false => simp [contactAct, h]

theorem ne_fault_of_open (h : isOpenState st = true) : st ≠ .fault := by
  rintro rfl
  cases h

theorem isOpenState_of_unsealed (h : isUnsealedState st = true) : isOpenState st = true := by
  cases st <;> simp_all [isUnsealedState, isOpenState]

theorem trailerAct_seals (h : isUnsealedState d.state = true) :
    trailerAct now limit true d = { d with state := .openSealed, holdSince := none } := by
  have hact : trailerAct now limit true d = enterDoorState now limit .openSealed d := by simp [trailerAct, h]
  rw [hact, enterDoorState_of_open (isOpenState_of_unsealed h) rfl]
  rfl

theorem trailerAct_unseals (h : d.state = .openSealed) : trailerAct now limit false d =
    { d with state := .openUnsealed, holdSince := if limit ≠ 0 then some now else none } := by
  have hact : trailerAct now limit false d = enterDoorState now limit .openUnsealed d := by simp [trailerAct, h]
  rw [hact, enterDoorState_of_open (by rw [h]; rfl) rfl]
  simp

theorem trailerAct_of_present (h : isUnsealedState d.state = false) : trailerAct now limit true d = d := by simp [trailerAct, h]

theorem trailerAct_of_absent (h : d.state ≠ .openSealed) : trailerAct now limit false d = d := by simp [trailerAct, h]

end Doors

end Sys2Proof.Machine
end

section
/-! SUPPORT. Proofs of O47 and O48: the timers of the doors, boost and the open seconds. -/

namespace Sys2Proof.Machine

/-- A configured door's record changed is one record in its place. -/
theorem onDoor_eq {s : State} {n : Fin 8} {r : Door} (h : s.doors.records[n.val]? = some r) (f : Door → Door) :
    onDoor n f s =
      { s with doors := { s.doors with records := updateAt n.val (fun _ => f r) s.doors.records } } := by
  rw [onDoor, updateAt_of_getElem? h]
  rfl

/-- The end of an event leaves every door its state (R154). -/
theorem EventFrame.doorStates {before s t : State} (h : EventFrame before s t) :
    t.doors.records.map Door.state = s.doors.records.map Door.state := by
  have hbare (l : List Door) : (l.map Door.bare).map Door.state = l.map Door.state := List.map_map
  rw [← hbare, h.doors, hbare]

/-- DOOR_HELD is active exactly while a door is HELD (R97, Table 37). -/
theorem EventFrame.door_held {before s t : State} (h : EventFrame before s t) :
    conditionSet t.alarms.active 4 = true ↔ ∃ x ∈ t.doors.records, x.state = .held := by
  rw [h.condition (by decide)]
  simp [alarmCauses]

/-- DOOR_FAULT is active exactly while a door is in FAULT (R98, Table 37). -/
theorem EventFrame.door_fault {before s t : State} (h : EventFrame before s t) :
    conditionSet t.alarms.active 5 = true ↔ ∃ x ∈ t.doors.records, x.state = .fault := by
  rw [h.condition (by decide)]
  simp [alarmCauses]

/-- The end of an event finds the record that the event has put in its place, in the state it was given. -/
theorem EventFrame.placed_state {before s t : State} {n : Nat} {l : List Door} {r x : Door} (h : EventFrame before s t)
    (hrecords : s.doors.records = updateAt n (fun _ => x) l) (hr : l[n]? = some r) :
    ∃ y ∈ t.doors.records, y.state = x.state := by
  have hplace : x ∈ s.doors.records := by
    rw [hrecords]
    exact List.mem_of_getElem? (by rw [updateAt_getElem?, if_pos rfl, hr]; rfl)
  have hmem : x.state ∈ t.doors.records.map Door.state := h.doorStates ▸ List.mem_map_of_mem hplace
  exact List.mem_map.mp hmem

/-- Settling that ends: the state is taken from the levels with the first ones taken (R93). -/
theorem settlingEnds_eq {now limit : Nat} {isOpen isPresent : Bool} {r : Door} (hshut : isOpenState r.state = false)
    (hcontact : (takeFirst isOpen r.contact).level = some isOpen)
    (htrailer : (takeFirst isPresent r.trailer).level = some isPresent) :
    settlingEnds now limit isOpen isPresent r = { r with
      state := if isOpen then (if isPresent then .openSealed else .openUnsealed) else .closed
      openSince := if isOpen then some now else none
      openMark := if isOpen then some now else none
      holdSince := if isOpen = true ∧ isPresent = false ∧ limit ≠ 0 then some now else none
      settling := false, contact := takeFirst isOpen r.contact, trailer := takeFirst isPresent r.trailer } :=
  settleDoor_of_levels (d := { r with contact := takeFirst isOpen r.contact, trailer := takeFirst isPresent r.trailer }) hshut
    hcontact htrailer

/-- A FAULT that clears: the state is taken from the levels (R99). -/
theorem clearDoorFault_eq {now limit : Nat} {r : Door} (h : r.state = .fault) :
    let isOpen := decide (r.contact.level = some true)
    let isPresent := decide (r.trailer.level = some true)
    clearDoorFault now limit r = { r with
      state := if isOpen then (if isPresent then .openSealed else .openUnsealed) else .closed
      openSince := if isOpen then some now else none
      openMark := if isOpen then some now else none
      holdSince := if isOpen = true ∧ isPresent = false ∧ limit ≠ 0 then some now else none
      stableSince := none, chatter := [] } := by
  intro isOpen isPresent
  rw [clearDoorFault, enterDoorState_levels (isOpen := isOpen) (isPresent := isPresent) (by rw [h]; rfl) (by simp [isOpen])
    (by simp [isPresent])]

/-- Settles O47: each timer's lemma says that its event happens, and the record it leaves is that of the door's own function. -/
theorem doorTimers : Obligations.DoorTimers := by
  intro s n r hrun hr limit becomes takes first has
  refine ⟨fun isOpen isPresent hsettling hshut hcontact htrailer => ?_, fun h hstate hsince hdue => ?_,
    fun q hstate hsince hdue => ?_⟩
  · have hdue := (settlingDue_iff s n isOpen isPresent).mpr ⟨hrun, r, hr, hsettling, hcontact, htrailer⟩
    refine ⟨_, congrArg Host.Outcome.next (if_pos hdue), eventFrame_of_eq ?_⟩
    rw [onDoor_eq hr, settlingEnds_eq hshut (takeFirst_level hcontact) (takeFirst_level htrailer)]
    rfl
  · have hdue := (doorHoldDue_iff s n).mpr ⟨hrun, r, hr, hstate, h, hsince, hdue⟩
    have hend : EventFrame s (becomes { r with state := .held, holdSince := none }) (finish s .none (onDoor n holdExpires s)) :=
      eventFrame_of_eq (onDoor_eq hr holdExpires).symm
    exact ⟨_, congrArg Host.Outcome.next (if_pos hdue), hend.door_held.mpr (hend.placed_state rfl hr), hend⟩
  · have hdue := (doorClearDue_iff s n).mpr ⟨hrun, r, hr, hstate, q, hsince, hdue⟩
    refine ⟨_, congrArg Host.Outcome.next (if_pos hdue), eventFrame_of_eq ?_⟩
    rw [onDoor_eq hr, clearDoorFault_eq hstate]

/-! ## Boost and the open seconds -/

theorem isUnsealedState_iff (st : DoorState) : isUnsealedState st = true ↔ st = .openUnsealed ∨ st = .held := by
  cases st <;> simp [isUnsealedState]

/-- The open-unsealed count counts the doors that are OPEN_UNSEALED or HELD (R101). -/
theorem countUnsealed_eq (l : List Door) :
    countUnsealed l = (l.filter fun r => decide (r.state = .openUnsealed ∨ r.state = .held)).length := by
  rw [countUnsealed, List.countP_eq_length_filter]
  refine congrArg List.length (List.filter_congr fun r _ => ?_)
  rw [← decide_eq_decide.mpr (isUnsealedState_iff r.state), Bool.decide_coe]

section Boost

variable {now recovery : Nat} {d : Doors}

theorem settleBoost_of_unsealed (h : 0 < countUnsealed d.records) : settleBoost now recovery d =
    { d with openUnsealed := countUnsealed d.records, boost := true, recoveryDue := none } := if_pos h

/-- The count falls to 0: boost lasts for the recovery time (R102). -/
theorem settleBoost_of_fall (h : countUnsealed d.records = 0) (hfall : 0 < d.openUnsealed) :
    settleBoost now recovery d = { d with
      openUnsealed := 0, boost := decide (0 < recovery)
      recoveryDue := if 0 < recovery then some (now + recovery * 1000) else none } := by
  cases recovery <;> simp [settleBoost, h, hfall]

theorem settleBoost_of_still (h : countUnsealed d.records = 0) (hstill : d.openUnsealed = 0) :
    settleBoost now recovery d = d := by
  have hsame : { d with openUnsealed := 0 } = d := by rw [← hstill]
  simp [settleBoost, h, hstill, hsame]

end Boost

/-- Settles O48: the count's three cases, one lemma each; the two commands happen as their timers' lemmas say. -/
theorem boostAndOpenSeconds : Obligations.BoostAndOpenSeconds := by
  refine ⟨fun now recovery d => ?_, fun s hrun => ⟨fun due hrecovery hdue => ?_, fun n r m hr hmark hrem hm hsecond => ?_⟩⟩
  · intro n
    have hcount : countUnsealed d.records = n := countUnsealed_eq d.records
    rw [← hcount]
    exact ⟨rfl, settleBoost_of_unsealed, settleBoost_of_fall, settleBoost_of_still⟩
  · exact event_of_due ((boostDue_iff s).mpr ⟨hrun, due, hrecovery, hdue⟩) s .none (endBoost s) s
  · have hdue := (openSecondsDue_iff s n).mpr ⟨hrun, r, hr, m, hmark, by omega⟩
    intro counted
    have hadvance : onDoor n (advanceOpenSecond s.clock) s =
        { s with doors := { s.doors with records := updateAt n.val (fun _ => counted) s.doors.records } } := by
      rw [onDoor_eq hr, advanceOpenSecond_of_marked hmark]
    exact congrArg Host.Outcome.next ((if_pos hdue).trans hadvance)

end Sys2Proof.Machine
end

section
/-! SUPPORT. Proof of O45: the contact's change by the door's state, alone and with the trailer sensor's. -/

namespace Sys2Proof.Machine

section Contact

variable {now limit : Nat} {r : Door}

/-- A settling door with both levels takes its state from them (R93). -/
theorem contactChange_settles (isOpen : Bool) {isPresent : Bool} (hsettling : r.settling = true)
    (hpresent : r.trailer.level = some isPresent) (hshut : isOpenState r.state = false) :
    contactChange now limit isOpen r = { r with
      contact := r.contact.take isOpen, settling := false
      state := if isOpen then (if isPresent then .openSealed else .openUnsealed) else .closed
      openSince := if isOpen then some now else none
      openMark := if isOpen then some now else none
      holdSince := if isOpen = true ∧ isPresent = false ∧ limit ≠ 0 then some now else none } :=
  (debouncedChange_of_settling (d := { r with contact := r.contact.take isOpen }) hsettling).trans
    (settleDoor_of_levels (d := { r with contact := r.contact.take isOpen }) hshut rfl hpresent)

/-- A CLOSED door that opens (R94). -/
theorem contactChange_opens {isPresent : Bool} (hpresent : r.trailer.level = some true ↔ isPresent = true)
    (hsettled : r.settling = false) (hclosed : r.state = .closed) (hfew : (chatterAfter now r.chatter).length < 7) :
    contactChange now limit true r = { r with
      contact := r.contact.take true, chatter := chatterAfter now r.chatter, cycles := min 65535 (r.cycles + 1)
      state := if isPresent then .openSealed else .openUnsealed, openSince := some now, openMark := some now
      holdSince := if isPresent = false ∧ limit ≠ 0 then some now else none } :=
  (contactChange_of_few true hsettled (by simp [hclosed]) hfew).trans (contactAct_opens
    (d := { r with contact := r.contact.take true, chatter := chatterAfter now r.chatter }) hclosed rfl hpresent)

/-- An open door that closes (R94, R103). -/
theorem contactChange_closes (hsettled : r.settling = false) (hopen : isOpenState r.state = true)
    (hfew : (chatterAfter now r.chatter).length < 7) :
    contactChange now limit false r = { gatherOpen now { r with contact := r.contact.take false } with
      state := .closed, openSince := none, openMark := none, holdSince := none, chatter := chatterAfter now r.chatter } := by
  refine (contactChange_of_few false hsettled (ne_fault_of_open hopen) hfew).trans ((contactAct_closes
    (d := { r with contact := r.contact.take false, chatter := chatterAfter now r.chatter }) hopen).trans ?_)
  exact congrArg (fun x : Door => { x with state := .closed, openSince := none, openMark := none, holdSince := none })
    (gatherOpen_chatter (d := { r with contact := r.contact.take false }) (chatterAfter now r.chatter))

end Contact

/-- A raw level that changes starts the stable time again (R93; assumption log 11). -/
theorem exec_contact_raw {s : State} {n : Fin 8} {isOpen : Bool} {r : Door} (hrun : s.start.running = true)
    (hr : s.doors.records[n.val]? = some r) (hraw : r.contact.raw ≠ isOpen) :
    exec (.doorContactChange n isOpen .raw) s = .next { s with doors := { s.doors with
      records := updateAt n.val (fun _ => { r with contact := { r.contact with raw := isOpen, since := s.clock } })
        s.doors.records } } := by
  have hadmits : contactAdmits n .raw isOpen s = true := by
    simp [contactAdmits, doorTest, doorOf, Debounced.admits, hrun, hr, hraw]
  exact congrArg Host.Outcome.next ((if_pos hadmits).trans (onDoor_eq hr _))

/-- Settles O45: each case of the contact's change is the lemma of its branch, and the trailer sensor's change follows as
`contactFirst_eq` says. -/
theorem doorContact : Obligations.DoorContact := by
  refine ⟨fun now r => ⟨gatherOpen_of_unmarked, fun m hm => gatherOpen_of_marked hm⟩, fun now limit isOpen r => ?_,
    fun s n isOpen r hrun hr => ?_⟩
  · intro taken d window sealed_ opened shut
    refine ⟨fun hsettling hunknown => ?_, fun hsettling hknown hshut => ?_, fun hsettled hfault => ?_,
      fun hsettled hok hseven => ?_, fun hsettled hclosed hfew hopens => ?_, fun hsettled hopen hfew hcloses => ?_,
      fun hsettled hok hfew hsame => ?_⟩
    · exact (debouncedChange_of_settling (d := d) hsettling).trans (settleDoor_of_unknown (.inr hunknown))
    · obtain ⟨isPresent, hpresent⟩ := Option.ne_none_iff_exists'.mp hknown
      refine (contactChange_settles isOpen hsettling hpresent hshut).trans ?_
      cases isOpen <;> cases isPresent <;> simp [opened, shut, sealed_, hpresent, d, Debounced.take]
    · exact contactChange_of_fault isOpen hsettled hfault
    · exact debouncedChange_of_seventh (d := d) hsettled hok hseven
    · subst hopens
      refine (contactChange_opens (isPresent := decide sealed_) (by simp [sealed_]) hsettled hclosed hfew).trans ?_
      by_cases hsealed : sealed_ <;> simp [opened, hsealed, d, window, Debounced.take, chatterAfter]
    · subst hcloses
      exact contactChange_closes hsettled hopen hfew
    · exact (contactChange_of_few isOpen hsettled hok hfew).trans (contactAct_of_same hsame)
  · intro limit becomes taken both
    refine ⟨exec_contact_raw hrun hr, fun hraw hheld hlevel => ?_⟩
    have hadmits := (contactAdmits_iff s n isOpen).mpr ⟨hrun, r, hr, hlevel, hraw, hheld⟩
    have hchange : onDoor n (contactFirst s.clock limit isOpen) s = becomes (contactFirst s.clock limit isOpen r) :=
      onDoor_eq hr _
    rw [contactFirst_eq] at hchange
    refine ⟨_, congrArg Host.Outcome.next (if_pos hadmits), fun halone => eventFrame_of_eq ?_,
      fun hboth => eventFrame_of_eq ?_, (finish_frame s .none _).door_fault⟩
    · exact (hchange.trans (congrArg becomes (if_neg halone))).symm
    · exact (hchange.trans (congrArg becomes (if_pos hboth))).symm

end Sys2Proof.Machine
end

section
/-! SUPPORT. Two debounced changes of one door at one instant, in either order (R95; assumption log 27). -/

namespace Sys2Proof.Machine

/-- The chatter window after a second change at one instant (R98). -/
theorem chatterAfter_twice (now : Nat) (window : List Nat) :
    chatterAfter now (chatterAfter now window) = chatterAfter now window ++ [now] := by
  simp [chatterAfter, List.filter_filter]

section Twice

variable {now limit : Nat} {isOpen isPresent : Bool} {r : Door}

/-! ## Into FAULT -/

@[simp] theorem gatherOpen_settling : (gatherOpen now r).settling = r.settling := by
  unfold gatherOpen
  split <;> rfl

/-- A change in FAULT, or the seventh within 30 s, ends in FAULT (R98, R99). -/
theorem debouncedChange_fault {act : Door → Door} (hsettled : r.settling = false)
    (h : r.state = .fault ∨ 7 ≤ (chatterAfter now r.chatter).length) :
    (debouncedChange now limit act r).state = .fault ∧ (debouncedChange now limit act r).settling = false := by
  by_cases hfault : r.state = .fault
  · rw [debouncedChange_of_fault hsettled hfault]
    exact ⟨hfault, hsettled⟩
  · rw [debouncedChange_of_seventh hsettled hfault (h.resolve_left hfault)]
    refine ⟨rfl, ?_⟩
    split
    · exact gatherOpen_settling.trans hsettled
    · exact hsettled

/-- In FAULT, or with six changes in the window after the first one, the two changes end in FAULT. -/
theorem debouncedChange_twice_fault {act act' store : Door → Door} (hact : ∀ x, (act x).still = x.still)
    (hstore : ∀ x, (store x).settling = x.settling ∧ (store x).state = x.state ∧ (store x).chatter = x.chatter)
    (hsettled : r.settling = false) (h : r.state = .fault ∨ 6 ≤ (chatterAfter now r.chatter).length) :
    (debouncedChange now limit act' (store (debouncedChange now limit act r))).state = .fault := by
  obtain ⟨hsettling, hstate, hchatter⟩ := hstore (debouncedChange now limit act r)
  by_cases hfirst : r.state = .fault ∨ 7 ≤ (chatterAfter now r.chatter).length
  · obtain ⟨hfault, hsettled'⟩ := debouncedChange_fault (limit := limit) (act := act) hsettled hfirst
    exact (debouncedChange_fault (hsettling.trans hsettled') (.inl (hstate.trans hfault))).1
  · obtain ⟨hok, hfew⟩ := not_or.mp hfirst
    obtain ⟨-, -, hkept, hwindow⟩ := Door.still_eq_iff.mp (hact { r with chatter := chatterAfter now r.chatter })
    rw [debouncedChange_of_few hsettled hok (Nat.not_le.mp hfew)] at hsettling hchatter ⊢
    refine (debouncedChange_fault (hsettling.trans (hkept.trans hsettled)) (.inr ?_)).1
    rw [hchatter, hwindow, chatterAfter_twice, List.length_append]
    exact Nat.succ_le_succ (h.resolve_left hok)

/-! ## Short of FAULT -/

/-- The trailer sensor's effect moves only the state and the hold timer (R95). -/
theorem trailerAct_eq : trailerAct now limit isPresent r =
    if isPresent = true ∧ isUnsealedState r.state = true then { r with state := .openSealed, holdSince := none }
    else if isPresent = false ∧ r.state = .openSealed then
      { r with state := .openUnsealed, holdSince := if limit ≠ 0 then some now else none }
    else r := by
  cases isPresent with
  | true =>
    cases h : isUnsealedState r.state with
    | true => simp [trailerAct_seals h]
    | false => simp [trailerAct_of_present h]
  | false =>
    by_cases h : r.state = .openSealed
    · simp [trailerAct_unseals h, h]
    · simp [trailerAct_of_absent h, h]

theorem trailerAct_isOpenState : isOpenState (trailerAct now limit isPresent r).state = isOpenState r.state := by
  rw [trailerAct_eq]
  split
  next hseals => exact (isOpenState_of_unsealed hseals.2).symm
  next =>
    split
    next hunseals => rw [hunseals.2]; rfl
    next => rfl

theorem trailerAct_ne_fault (h : r.state ≠ .fault) : (trailerAct now limit isPresent r).state ≠ .fault := by
  rw [trailerAct_eq]
  split
  · simp
  · split
    · simp
    · exact h

theorem contactAct_ne_fault (h : r.state ≠ .fault) : (contactAct now limit isOpen r).state ≠ .fault := by
  unfold contactAct
  split_ifs
  · simp only [enterDoorState, stateFromLevels]
    split_ifs <;> simp
  · exact h
  · simp [enterDoorState]
  · exact h

/-- The contact's effect on the state does not look at the chatter window. -/
theorem contactAct_chatter (window : List Nat) : contactAct now limit isOpen { r with chatter := window } =
    { contactAct now limit isOpen r with chatter := window } := by
  have henter (st : DoorState) : enterDoorState now limit st { r with chatter := window } =
      { enterDoorState now limit st r with chatter := window } := by
    simp only [enterDoorState, gatherOpen_chatter]
    split <;> rfl
  unfold contactAct
  split_ifs
  · exact congrArg (fun x : Door => { x with cycles := min 65535 (r.cycles + 1) }) (henter (stateFromLevels r))
  · rfl
  · exact henter .closed
  · rfl

/-- The trailer sensor's effect on the state looks neither at the contact nor at the chatter window. -/
theorem trailerAct_moved (contact : Debounced) (window : List Nat) :
    trailerAct now limit isPresent { r with contact := contact, chatter := window } =
      { trailerAct now limit isPresent r with contact := contact, chatter := window } := by
  rw [trailerAct_eq, trailerAct_eq]
  dsimp only
  split
  · rfl
  · split <;> rfl

theorem trailerAct_of_closed (h : r.state = .closed) : trailerAct now limit isPresent r = r := by
  rw [trailerAct_eq]
  simp [h, isUnsealedState]

theorem trailerAct_moves : ∃ st hold, trailerAct now limit isPresent r = { r with state := st, holdSince := hold } := by
  rw [trailerAct_eq]
  split
  · exact ⟨_, _, rfl⟩
  · split
    · exact ⟨_, _, rfl⟩
    · exact ⟨r.state, r.holdSince, rfl⟩

/-- The open time gathered does not look at the trailer sensor, nor at what it moves (R103). -/
theorem gatherOpen_moved (st : DoorState) (hold : Option Nat) (trailer : Debounced) :
    gatherOpen now { r with state := st, holdSince := hold, trailer := trailer } =
      { gatherOpen now r with state := st, holdSince := hold, trailer := trailer } := by
  unfold gatherOpen
  dsimp only
  split <;> rfl

/-- The two effects on the state, each after its own input has its new level: either order ends in the same record (R95). -/
theorem trailerAct_contactAct {trailer : Debounced} (hok : r.state ≠ .fault) (hcontact : r.contact.level = some isOpen)
    (htrailer : trailer.level = some isPresent) :
    trailerAct now limit isPresent { contactAct now limit isOpen r with trailer := trailer } =
      contactAct now limit isOpen (trailerAct now limit isPresent { r with trailer := trailer }) := by
  have hopens : isOpenState (trailerAct now limit isPresent { r with trailer := trailer }).state = isOpenState r.state :=
    trailerAct_isOpenState
  by_cases hsame : isOpenState r.state = isOpen
  · rw [contactAct_of_same hsame, contactAct_of_same (hopens.trans hsame)]
  cases isOpen with
  | false =>
    have hopen : isOpenState r.state = true := by simpa using hsame
    obtain ⟨st, hold, hmoves⟩ := trailerAct_moves (now := now) (limit := limit) (isPresent := isPresent)
      (r := { r with trailer := trailer })
    rw [contactAct_closes hopen, contactAct_closes (hopens.trans hopen), trailerAct_of_closed rfl, hmoves]
    exact (congrArg (fun x : Door => { x with state := .closed, openSince := none, openMark := none, holdSince := none })
      (gatherOpen_moved (r := r) st hold trailer)).symm
  | true =>
    have hclosed : r.state = .closed := by cases hstate : r.state <;> simp_all [isOpenState]
    have hlast := contactAct_opens (now := now) (limit := limit) (isPresent := isPresent) (d := { r with trailer := trailer })
      hclosed hcontact (by simp [htrailer])
    rw [trailerAct_of_closed (r := { r with trailer := trailer }) hclosed, hlast,
      contactAct_opens (isPresent := decide (r.trailer.level = some true)) hclosed hcontact (by simp), trailerAct_eq]
    cases isPresent <;> cases decide (r.trailer.level = some true) <;> simp [isUnsealedState]

section Few

variable (hsettled : r.settling = false) (hok : r.state ≠ .fault) (hfew : (chatterAfter now r.chatter).length < 6)

include hsettled hok hfew

theorem trailerChange_contactChange : trailerChange now limit isPresent (contactChange now limit isOpen r) =
    trailerAct now limit isPresent { contactAct now limit isOpen { r with
      contact := r.contact.take isOpen, chatter := chatterAfter now r.chatter ++ [now] } with
      trailer := r.trailer.take isPresent } := by
  let first := contactAct now limit isOpen { r with contact := r.contact.take isOpen, chatter := chatterAfter now r.chatter }
  obtain ⟨-, htrailer, hsettling, hchatter⟩ := Door.still_eq_iff.mp (contactAct_still (now := now) (limit := limit) isOpen
    (d := { r with contact := r.contact.take isOpen, chatter := chatterAfter now r.chatter }))
  have hwindow : chatterAfter now first.chatter = chatterAfter now r.chatter ++ [now] :=
    (congrArg _ hchatter).trans (chatterAfter_twice _ _)
  have hlast := trailerChange_of_few (now := now) (limit := limit) isPresent (d := first) (hsettling.trans hsettled)
    (contactAct_ne_fault hok) (by rw [hwindow, List.length_append]; exact Nat.succ_lt_succ hfew)
  rw [hwindow, htrailer] at hlast
  have hmoved := contactAct_chatter (now := now) (limit := limit) (isOpen := isOpen)
    (r := { r with contact := r.contact.take isOpen, chatter := chatterAfter now r.chatter }) (chatterAfter now r.chatter ++ [now])
  rw [contactChange_of_few isOpen hsettled hok (by omega), hlast]
  exact congrArg (fun x : Door => trailerAct now limit isPresent { x with trailer := r.trailer.take isPresent }) hmoved.symm

theorem contactChange_trailerChange : contactChange now limit isOpen (trailerChange now limit isPresent r) =
    contactAct now limit isOpen (trailerAct now limit isPresent { r with
      contact := r.contact.take isOpen, trailer := r.trailer.take isPresent
      chatter := chatterAfter now r.chatter ++ [now] }) := by
  let first := trailerAct now limit isPresent { r with
    trailer := r.trailer.take isPresent, chatter := chatterAfter now r.chatter }
  obtain ⟨hcontact, -, hsettling, hchatter⟩ := Door.still_eq_iff.mp (trailerAct_still (now := now) (limit := limit) isPresent
    (d := { r with trailer := r.trailer.take isPresent, chatter := chatterAfter now r.chatter }))
  have hwindow : chatterAfter now first.chatter = chatterAfter now r.chatter ++ [now] :=
    (congrArg _ hchatter).trans (chatterAfter_twice _ _)
  have hlast := contactChange_of_few (now := now) (limit := limit) isOpen (d := first) (hsettling.trans hsettled)
    (trailerAct_ne_fault hok) (by rw [hwindow, List.length_append]; exact Nat.succ_lt_succ hfew)
  rw [hwindow, hcontact] at hlast
  have hmoved := trailerAct_moved (now := now) (limit := limit) (isPresent := isPresent)
    (r := { r with trailer := r.trailer.take isPresent, chatter := chatterAfter now r.chatter })
    (r.contact.take isOpen) (chatterAfter now r.chatter ++ [now])
  rw [trailerChange_of_few isPresent hsettled hok (by omega), hlast]
  exact congrArg (contactAct now limit isOpen) hmoved.symm

/-- Short of a FAULT the two changes end in the same record in either order: two changes in the chatter window (R95). -/
theorem changes_commute : trailerChange now limit isPresent (contactChange now limit isOpen r) =
    contactChange now limit isOpen (trailerChange now limit isPresent r) := by
  rw [trailerChange_contactChange hsettled hok hfew, contactChange_trailerChange hsettled hok hfew]
  exact trailerAct_contactAct (r := { r with contact := r.contact.take isOpen, chatter := chatterAfter now r.chatter ++ [now] })
    hok rfl rfl

end Few

/-- The two changes end in the same state in either order, whatever the chatter window holds (R95, R98, R99). -/
theorem changes_state (hsettled : r.settling = false) :
    (trailerChange now limit isPresent (contactChange now limit isOpen r)).state =
      (contactChange now limit isOpen (trailerChange now limit isPresent r)).state := by
  by_cases hfault : r.state = .fault ∨ 6 ≤ (chatterAfter now r.chatter).length
  · have hcontact : (trailerChange now limit isPresent (contactChange now limit isOpen r)).state = .fault :=
      debouncedChange_twice_fault (fun _ => contactAct_still isOpen)
        (store := fun x => { x with trailer := x.trailer.take isPresent }) (fun _ => ⟨rfl, rfl, rfl⟩) hsettled hfault
    have htrailer : (contactChange now limit isOpen (trailerChange now limit isPresent r)).state = .fault :=
      debouncedChange_twice_fault (fun _ => trailerAct_still isPresent)
        (store := fun x => { x with contact := x.contact.take isOpen }) (fun _ => ⟨rfl, rfl, rfl⟩) hsettled hfault
    exact hcontact.trans htrailer.symm
  · obtain ⟨hok, hfew⟩ := not_or.mp hfault
    exact congrArg Door.state (changes_commute hsettled hok (Nat.not_le.mp hfew))

end Twice

end Sys2Proof.Machine
end

section
/-! SUPPORT. Proof of O46: the trailer sensor's change by the door's state, alone and with the contact's. -/

namespace Sys2Proof.Machine

section Trailer

variable {now limit : Nat} {r : Door}

/-- A settling door with both levels takes its state from them (R93). -/
theorem trailerChange_settles {isOpen : Bool} (isPresent : Bool) (hsettling : r.settling = true)
    (hcontact : r.contact.level = some isOpen) (hshut : isOpenState r.state = false) :
    trailerChange now limit isPresent r = { r with
      trailer := r.trailer.take isPresent, settling := false
      state := if isOpen then (if isPresent then .openSealed else .openUnsealed) else .closed
      openSince := if isOpen then some now else none
      openMark := if isOpen then some now else none
      holdSince := if isOpen = true ∧ isPresent = false ∧ limit ≠ 0 then some now else none } :=
  (debouncedChange_of_settling (d := { r with trailer := r.trailer.take isPresent }) hsettling).trans
    (settleDoor_of_levels (d := { r with trailer := r.trailer.take isPresent }) hshut hcontact rfl)

/-- The states that the trailer sensor's level leaves (R95). -/
theorem trailerAct_of_same {isPresent : Bool} (h : r.state = .closed ∨ (isPresent = true ∧ r.state = .openSealed) ∨
    (isPresent = false ∧ (r.state = .openUnsealed ∨ r.state = .held))) : trailerAct now limit isPresent r = r := by
  rcases h with hclosed | ⟨rfl, hsealed⟩ | ⟨rfl, hunsealed | hheld⟩
  · exact trailerAct_of_closed hclosed
  · exact trailerAct_of_present (by rw [hsealed]; rfl)
  · exact trailerAct_of_absent (by simp [hunsealed])
  · exact trailerAct_of_absent (by simp [hheld])

end Trailer

/-- A raw level that changes starts the stable time again (R93; assumption log 11). -/
theorem exec_trailer_raw {s : State} {n : Fin 8} {isPresent : Bool} {r : Door} (hrun : s.start.running = true)
    (hr : s.doors.records[n.val]? = some r) (hraw : r.trailer.raw ≠ isPresent) :
    exec (.doorTrailerChange n isPresent .raw) s = .next { s with doors := { s.doors with
      records := updateAt n.val (fun _ => { r with trailer := { r.trailer with raw := isPresent, since := s.clock } })
        s.doors.records } } := by
  have hadmits : trailerAdmits n .raw isPresent s = true := by
    simp [trailerAdmits, doorTest, doorOf, Debounced.admits, hrun, hr, hraw]
  exact congrArg Host.Outcome.next ((if_pos hadmits).trans (onDoor_eq hr _))

/-- Settles O46: each case of the trailer sensor's change is the lemma of its branch, the two orders agree by `changes_state` and
`changes_commute`, and the contact's change follows as `trailerFirst_eq` says. -/
theorem doorTrailer : Obligations.DoorTrailer := by
  refine ⟨fun now limit isPresent r => ?_, fun now limit isOpen isPresent r hsettled => ?_, fun s n isPresent r hrun hr => ?_⟩
  · intro taken d window shut holds
    refine ⟨fun hsettling hunknown => ?_, fun hsettling hcontact hshut => ?_, fun hsettling hcontact hshut => ?_,
      fun hsettled hfault => ?_, fun hsettled hok hseven => ?_, fun hsettled hfew hcomes hunsealed => ?_,
      fun hsettled hfew hleaves hsealed => ?_, fun hsettled hfew hsame => ?_⟩
    · exact (debouncedChange_of_settling (d := d) hsettling).trans (settleDoor_of_unknown (.inl hunknown))
    · refine (trailerChange_settles isPresent hsettling hcontact hshut).trans ?_
      cases isPresent <;> simp [holds, d, Debounced.take]
    · exact trailerChange_settles isPresent hsettling hcontact hshut
    · exact trailerChange_of_fault isPresent hsettled hfault
    · exact debouncedChange_of_seventh (d := d) hsettled hok hseven
    · subst hcomes
      have hunsealed' : isUnsealedState r.state = true := (isUnsealedState_iff r.state).mpr hunsealed
      exact (trailerChange_of_few true hsettled (ne_fault_of_open (isOpenState_of_unsealed hunsealed')) hfew).trans
        (trailerAct_seals hunsealed')
    · subst hleaves
      refine (trailerChange_of_few false hsettled (by simp [hsealed]) hfew).trans ((trailerAct_unseals
        (d := { r with trailer := r.trailer.take false, chatter := chatterAfter now r.chatter }) hsealed).trans ?_)
      simp [holds, d, window, Debounced.take, chatterAfter]
    · have hok : r.state ≠ .fault := by
        intro hfault
        simp [hfault] at hsame
      exact (trailerChange_of_few isPresent hsettled hok hfew).trans (trailerAct_of_same hsame)
  · intro contactFirst trailerFirst
    refine ⟨changes_state hsettled, fun hok hfew => changes_commute hsettled hok ?_⟩
    rw [chatterAfter, List.length_append]
    exact Nat.succ_lt_succ_iff.mp hfew
  · intro limit becomes taken both
    refine ⟨exec_trailer_raw hrun hr, fun hraw hheld hlevel => ?_⟩
    have hadmits := (trailerAdmits_iff s n isPresent).mpr ⟨hrun, r, hr, hlevel, hraw, hheld⟩
    have hchange : onDoor n (trailerFirst s.clock limit isPresent) s = becomes (trailerFirst s.clock limit isPresent r) :=
      onDoor_eq hr _
    rw [trailerFirst_eq] at hchange
    refine ⟨_, congrArg Host.Outcome.next (if_pos hadmits), fun halone => eventFrame_of_eq ?_,
      fun hboth => eventFrame_of_eq ?_, (finish_frame s .none _).door_fault⟩
    · exact (hchange.trans (congrArg becomes (if_neg halone))).symm
    · exact (hchange.trans (congrArg becomes (if_pos hboth))).symm

end Sys2Proof.Machine
end

section
/-! SUPPORT. A heater stage within an event: its threshold call, its row of Table 25 before the event has ended, and its switching
(R111 to R116); the alarm conditions of the temperature limits (R149). -/

namespace Sys2Proof.Machine

/-- A view of two lists that agree under it: their elements at one place agree too. -/
theorem eq_of_map_eq {α β : Type} {f : α → β} {l l' : List α} {k : Nat} {x y : α} (h : l'.map f = l.map f)
    (hx : l[k]? = some x) (hy : l'[k]? = some y) : f y = f x := by
  simpa [hx, hy] using congrArg (fun m => m[k]?) h

/-! ## Threshold calls -/

/-- The threshold call of stage `k` after it is judged: clear in a fault, kept while no reading is held (R107, R112). -/
def judgedCall (c : HeatConfig) (fault : Bool) (last : Option Int) (effective : Int) (k : Nat) (was : Bool) : Bool :=
  if fault then false else last.elim was fun t => judgeCall c k (effective - t) was

/-- A call is set past the stage's threshold, and kept within the hysteresis below it (R112). -/
theorem judgeCall_eq (c : HeatConfig) (k : Nat) (e : Int) (was : Bool) : judgeCall c k e was =
    (decide ((k * c.spacing : Nat) < e) || (was && decide ((k * c.spacing : Nat) - (c.hysteresis : Int) < e))) := by
  unfold judgeCall
  dsimp only
  rw [Nat.cast_mul]
  split_ifs with hset hclear
  · simp [hset]
  · simp [hset, hclear]
  · simp [hset, not_le.mp hclear]

/-- Stage `k` after the calls are judged (R112). -/
theorem judgeCallsFrom_getElem? (c : HeatConfig) (fault : Bool) (last : Option Int) (e : Int) (k0 k : Nat) (sts : List Stage) :
    (judgeCallsFrom c fault last e k0 sts)[k]? =
      sts[k]?.map fun st => { st with call := judgedCall c fault last e (k0 + k) st.call } := by
  induction sts generalizing k0 k with
  | nil => rfl
  | cons st sts ih =>
    cases k with
    | zero => cases last <;> rfl
    | succ n => simp [judgeCallsFrom, ih, Nat.add_assoc, Nat.add_comm 1 n]

/-! ## Demands formed within an event -/

/-- A demand formed within an event is its row's, with the grant that the stage had (R113, R114). -/
theorem keepGrant_formed (now : Nat) (c : StageConfig) (row : StageCall) (st was : Stage) :
    StageFormed row (keepGrant (formStage now c row st) was) :=
  (formStage_ok now c row st).formed

/-- Stage `k` after the stages form their demands within an event (R113). -/
theorem reformStages_getElem? (s : State) {k : Nat} {c : StageConfig} (hc : s.cfg.heat.stages[k]? = some c) :
    (reformStages s).heat.stages[k]? =
      s.heat.stages[k]?.map fun st => keepGrant (formStage s.clock c (stageRow s k st.call) st) st := by
  have hformed := formStages_getElem? s.clock (isWorking s) (holdRules (rulingEffect s.overrides.heat)) s.heat 0 k
    s.cfg.heat.stages s.heat.stages c hc
  rw [Nat.zero_add] at hformed
  rw [reformStages, State.setHeat_heat, alongside_getElem?, hformed]
  cases s.heat.stages[k]? <;> rfl

/-- A stage that its row calls takes the row's tier within an event and keeps all else (R113, R114). -/
theorem reformStages_called {s : State} {k : Nat} {c : StageConfig} {st : Stage} {tier : Tier}
    (hst : s.heat.stages[k]? = some st) (hc : s.cfg.heat.stages[k]? = some c) (hrow : stageRow s k st.call = .called tier) :
    (reformStages s).heat.stages[k]? = some { st with demand := .called, tier := some tier } := by
  rw [reformStages_getElem? s hc, hst, Option.map_some, hrow]
  rfl

/-- The forming of the demands leaves the calls (R113). -/
theorem reformStages_calls (s : State) : (reformStages s).heat.stages.map Stage.call = s.heat.stages.map Stage.call :=
  (alongside_map Stage.call keepGrant (fun _ _ => rfl) _ _).trans (formStages_calls _ _ _ _ _ _ _)

section Formed

variable {row : StageCall} {st : Stage}

theorem StageFormed.of_called {tier : Tier} (hst : StageFormed row st) (hrow : row = .called tier) :
    st.demand = .called ∧ st.tier = some tier := by
  subst hrow
  exact hst

theorem StageFormed.of_cut (hst : StageFormed row st) (hrow : row = .released true) :
    st.on = false ∧ st.demand = .none ∧ st.tier = none := by
  subst hrow
  unfold StageFormed at hst
  cases hon : st.on with
  | true => simp [hon] at hst
  | false => simpa [hon] using hst

theorem StageFormed.of_released (hst : StageFormed row st) (hrow : row = .released false) :
    if st.on then st.demand = .holding ∧ st.tier = some 3 else st.demand = .none ∧ st.tier = none := by
  subst hrow
  unfold StageFormed at hst
  cases hon : st.on with
  | true => simpa [hon] using hst
  | false => simpa [hon] using hst

/-- An OFF stage whose record is CALLED has a row that calls it, at the record's tier (R113). -/
theorem StageFormed.row_called (hst : StageFormed row st) (hoff : st.on = false) (hcalled : st.demand = .called) :
    ∃ tier, row = .called tier ∧ st.tier = some tier := by
  cases row with
  | called tier => exact ⟨tier, rfl, hst.2⟩
  | released immediate => simp [StageFormed, hoff, hcalled] at hst

/-- A stage's record under each row of Table 25 within an event, for HOLD and the page's class as they stand (R110, R113). -/
theorem StageFormed.rows {working holds : Bool} {hold isWorkingPage : Prop} [Decidable hold] [Decidable isWorkingPage]
    (hhold : holds = true ↔ hold) (hworking : working = true ↔ isWorkingPage) {h : Heat} {k : Nat}
    (hst : StageFormed (stageCall working holds h k st.call) st) :
    let called (tier : Tier) : Prop := st.demand = .called ∧ st.tier = some tier
    let cut : Prop := st.on = false ∧ st.demand = .none ∧ st.tier = none
    let ordinary : Prop := if st.on then st.demand = .holding ∧ st.tier = some 3 else st.demand = .none ∧ st.tier = none
    if h.fault then if hold then cut else if isWorkingPage ∧ k = 0 then called 2 else ordinary
    else if h.overheat then cut
    else if h.freeze = true ∧ k = 0 then called 0
    else if hold then cut
    else if st.call then called (if h.source = .unoccupied then 3 else 2)
    else ordinary := by
  intro called cut ordinary
  rw [stageCall] at hst
  simp only [hhold, hworking] at hst
  split_ifs at hst ⊢
  · exact hst.of_cut rfl
  · exact hst.of_called rfl
  · exact hst.of_released rfl
  · exact hst.of_cut rfl
  · exact hst.of_called rfl
  · exact hst.of_cut rfl
  · exact hst.of_called rfl
  · exact hst.of_called rfl
  · exact hst.of_released rfl

end Formed

/-! ## Switching -/

/-- An OFF stage that is CALLED and granted is energised once its min-off time has elapsed (R115). -/
theorem switchStage_energises {now : Nat} {c : StageConfig} {st : Stage} (hoff : st.on = false) (hcalled : st.demand = .called)
    (hgranted : st.granted = true) (hdue : st.since + c.minOff * 1000 ≤ now) :
    switchStage now c st = { st with on := true, since := now } := by
  simp [switchStage, minOffElapsed, hoff, hcalled, hgranted, hdue]

/-- The heat unit's switching energises such a stage (R115). -/
theorem driveStages_energises {s : State} {k : Nat} {c : StageConfig} {st : Stage} (hst : s.heat.stages[k]? = some st)
    (hc : s.cfg.heat.stages[k]? = some c) (hoff : st.on = false) (hcalled : st.demand = .called) (hgranted : st.granted = true)
    (hdue : st.since + c.minOff * 1000 ≤ s.clock) :
    (driveStages s).heat.stages[k]? = some { st with on := true, since := s.clock } := by
  rw [driveStages, State.setHeat_heat, switchStages_getElem? s.clock k s.cfg.heat.stages s.heat.stages c hc, hst,
    Option.map_some, switchStage_energises hoff hcalled hgranted hdue]

end Sys2Proof.Machine
end

section
/-! SUPPORT. Proof of O49: the setpoint, the calls and the demands formed within an event, and a reading's own switching. -/

namespace Sys2Proof.Machine

/-! ## The setpoint, the calls and the demands -/

theorem baseSetpoint_of_setpoint {rule : Option Effect} {x : Int} (h : rule = some (.setpoint x)) (page : Page)
    (bay : BayState) : baseSetpoint page bay rule = (x, .override) := by
  subst h
  rfl

/-- Without a ruling setpoint the page's own one applies (R111). -/
theorem baseSetpoint_of_page {rule : Option Effect} (h : ∀ x, rule ≠ some (.setpoint x)) (page : Page) (bay : BayState) :
    baseSetpoint page bay rule = if page.pageClass = .working ∧ bay ≠ .vacant then (page.occupied, .occupied)
      else (page.unoccupied, .unoccupied) := by
  unfold baseSetpoint
  split
  · exact absurd rfl (h _)
  · rfl

/-- The demands formed within an event are those of their rows (R113, R114). -/
theorem reformStages_stagesFormed (s : State) : StagesFormed (reformStages s) := by
  intro k c st' hc hst'
  have hstage := hst'
  rw [reformStages_getElem? s hc] at hstage
  obtain ⟨st, -, rfl⟩ := Option.map_eq_some_iff.mp hstage
  have hcall : (keepGrant (formStage s.clock c (stageRow s k st.call) st) st).call = st.call := formStage_call _ _ _ _
  rw [hcall]
  exact keepGrant_formed s.clock c (stageRow s k st.call) st st

section Reformed

variable {s : State} {k : Nat} {st st' : Stage} (hst : s.heat.stages[k]? = some st)
  (hst' : (reformHeat s).heat.stages[k]? = some st')

include hst hst'

/-- The threshold calls are judged against the setpoint formed (R112). -/
theorem reformHeat_call : st'.call =
    judgedCall s.cfg.heat s.heat.fault s.heat.last (reformHeat s).heat.effective k st.call := by
  have hcalls : (reformHeat s).heat.stages.map Stage.call = (judgeCallsFrom s.cfg.heat s.heat.fault s.heat.last
      (reformHeat s).heat.effective 0 s.heat.stages).map Stage.call := reformStages_calls (settleSetpoint s)
  have hjudged := judgeCallsFrom_getElem? s.cfg.heat s.heat.fault s.heat.last (reformHeat s).heat.effective 0 k s.heat.stages
  rw [hst, Nat.zero_add] at hjudged
  exact eq_of_map_eq hcalls hjudged hst'

theorem reformHeat_granted : st'.granted = st.granted := eq_of_map_eq (sameGrants_reformHeat s).stages hst hst'

end Reformed

/-! ## A reading's staging and switching -/

/-- The calls after a reading are judged against the setpoint as it stands (R106, R112). -/
theorem stageReading_calls (s : State) : (stageReading s).heat.stages.map Stage.call =
    (judgeCallsFrom s.cfg.heat s.heat.fault s.heat.last s.heat.effective 0 s.heat.stages).map Stage.call :=
  (reformStages_calls _).trans ((switchStages_calls _ _ _).trans (reformStages_calls (s.setHeat (judgeCalls s.cfg.heat s.heat))))

/-- A reading energises an OFF stage that is called, granted and past its min-off time, before the demands are published (R106,
R115). -/
theorem stageReading_energises {s : State} {k : Nat} {c : StageConfig} {st st' : Stage} {tier : Tier}
    (hc : s.cfg.heat.stages[k]? = some c) (hst : s.heat.stages[k]? = some st) (hst' : (stageReading s).heat.stages[k]? = some st')
    (hoff : st.on = false) (hgranted : st.granted = true) (hdue : st.since + c.minOff * 1000 ≤ s.clock)
    (hrow : stageRow s k st'.call = .called tier) :
    st' = { st with call := st'.call, demand := .called, tier := some tier, on := true, since := s.clock } := by
  have hjudged : (s.setHeat (judgeCalls s.cfg.heat s.heat)).heat.stages[k]? = some { st with call := st'.call } := by
    have hat := judgeCallsFrom_getElem? s.cfg.heat s.heat.fault s.heat.last s.heat.effective 0 k s.heat.stages
    rw [hst] at hat
    rw [eq_of_map_eq (stageReading_calls s) hat hst']
    exact hat
  have hcalled := reformStages_called hjudged hc hrow
  have hswitched := driveStages_energises hcalled hc hoff rfl hgranted hdue
  have hformed := reformStages_called hswitched hc hrow
  exact Option.some.inj (hst'.symm.trans hformed)

/-! ## The reading -/

theorem readingFaulty_iff (reading : Option Int) : readingFaulty reading = true ↔
    ∀ x, reading = some x → x < -400 ∨ 600 < x := by
  cases reading <;> simp [readingFaulty]

theorem judgeFreeze_eq (c : HeatConfig) (t : Int) (was : Bool) : judgeFreeze c t was =
    decide (t < c.criticalLow ∨ (was = true ∧ t < c.criticalLow + c.hysteresis)) := by
  rw [Bool.eq_iff_iff, judgeFreeze_iff, decide_eq_true_iff, and_comm]

theorem judgeOverheat_eq (c : HeatConfig) (t : Int) (was : Bool) : judgeOverheat c t was =
    decide (c.high < t ∨ (was = true ∧ c.high - c.hysteresis < t)) := by
  rw [Bool.eq_iff_iff, judgeOverheat_iff, decide_eq_true_iff, and_comm]

/-- A faulty reading leaves no reading held and both limits clear (R107). -/
theorem takeReading_of_faulty {reading : Option Int} (hfaulty : readingFaulty reading = true) (c : HeatConfig) (h : Heat) :
    takeReading c reading h = { h with fault := true, last := none, freeze := false, overheat := false } := if_pos hfaulty

/-- A sound reading is held, and the limits are judged by it (R106 to R109). -/
theorem takeReading_of_sound {x : Int} (hsound : ¬readingFaulty (some x) = true) (c : HeatConfig) (h : Heat) :
    takeReading c (some x) h = { h with
      fault := false, last := some x
      freeze := decide (x < c.criticalLow ∨ (h.freeze = true ∧ x < c.criticalLow + c.hysteresis))
      overheat := decide (c.high < x ∨ (h.overheat = true ∧ c.high - c.hysteresis < x)) } := by
  rw [← judgeFreeze_eq, ← judgeOverheat_eq]
  exact if_neg hsound

section Ended

variable {before s t : State} (h : EventFrame before s t)

include h

/-- The end of an event leaves the limits (R154). -/
theorem EventFrame.freeze : t.heat.freeze = s.heat.freeze := by rw [h.heat]
theorem EventFrame.overheat : t.heat.overheat = s.heat.overheat := by rw [h.heat]
theorem EventFrame.temperatureFault : t.heat.fault = s.heat.fault := by rw [h.heat]

/-- FREEZE and OVERHEAT are active exactly where the monitor has set them (R108, R109, Table 37). -/
theorem EventFrame.freeze_active : conditionSet t.alarms.active 2 = t.heat.freeze := h.condition (by decide)
theorem EventFrame.overheat_active : conditionSet t.alarms.active 3 = t.heat.overheat := h.condition (by decide)

/-- SENSOR_FAULT is active while the temperature monitor is in fault (R107, Table 37). -/
theorem EventFrame.sensor_fault (hfault : s.heat.fault = true) : conditionSet t.alarms.active 7 = true := by
  rw [h.condition (by decide)]
  simp [alarmCauses, sensorFault, h.temperatureFault, hfault]

end Ended

/-- Settles O49: the setpoint and each stage's call and demand by their own lemmas, the reading's switching by
`stageReading_energises`, and the reading held or not as `takeReading_of_sound` and `takeReading_of_faulty` say. -/
theorem temperatureReading : Obligations.TemperatureReading := by
  have hpage (s : State) : isWorking s = true ↔ (currentPage s).pageClass = .working := decide_eq_true_iff
  refine ⟨fun s => ?_, fun s => ?_, fun s value hrun hdue => ?_⟩
  · intro h rule page c
    have hsetpoint : (h.setpoint, h.source) = baseSetpoint page s.lighting.bay rule := rfl
    refine ⟨reformHeat_eq s, fun x hx => ?_, fun hnone => ?_, rfl, reformHeat_stageCount s, fun k st st' hst hst' =>
      ⟨reformHeat_granted hst hst', ?_, fun kc hkc => ?_⟩⟩
    · rw [baseSetpoint_of_setpoint hx] at hsetpoint
      exact Prod.mk.inj hsetpoint
    · rw [baseSetpoint_of_page hnone] at hsetpoint
      split_ifs at hsetpoint ⊢
      · exact Prod.mk.inj hsetpoint
      · exact Prod.mk.inj hsetpoint
    · rw [reformHeat_call hst hst', judgedCall]
      cases s.heat.last with
      | none => rfl
      | some x => exact congrArg (if s.heat.fault then false else ·) (judgeCall_eq _ _ _ _)
    · exact (reformStages_stagesFormed (settleSetpoint s) k kc st' hkc hst').rows (holdRules_iff rule) (hpage s)
  · intro h hold page
    refine ⟨stageReading_eq s, stageReading_stageCount s, stageReading_calls s,
      fun k c st st' tier hc hst hst' hoff hgranted hdue hcase => ?_⟩
    refine stageReading_energises hc hst hst' hoff hgranted hdue ?_
    have hhold : holdRules (rulingEffect s.overrides.heat) = true ↔ hold := holdRules_iff _
    by_cases hfault : s.heat.fault = true
    · rw [if_pos hfault] at hcase
      obtain ⟨hfree, hworking, rfl, rfl⟩ := hcase
      rw [stageRow, stageCall_of_fault hfault, if_neg (mt hhold.mp hfree), if_pos ⟨(hpage s).mpr hworking, rfl⟩]
    · rw [if_neg hfault] at hcase
      obtain ⟨hover, hcase⟩ := hcase
      have hsound : s.heat.fault = false := Bool.eq_false_iff.mpr hfault
      by_cases hfreeze : s.heat.freeze = true ∧ k = 0
      · rw [if_pos hfreeze] at hcase
        rw [stageRow, stageCall_of_freeze hsound hover hfreeze.1 hfreeze.2, hcase]
      · rw [if_neg hfreeze] at hcase
        obtain ⟨hfree, hcall, rfl⟩ := hcase
        rw [stageRow, stageCall_of_limits hsound hover hfreeze, if_neg (mt hhold.mp hfree), if_pos hcall]
  · intro c
    have hreading : readingDue s = true := by simp [readingDue, hrun, hdue]
    obtain ⟨t, hexec, hend⟩ := event_of_due hreading s .none (readTemperature value s) s
    refine ⟨t, hexec, hend.freeze_active, hend.overheat_active, fun x hx hlow hhigh => ?_, fun hbad => ?_⟩
    · subst hx
      have hsound : ¬readingFaulty (some x) = true := by
        rw [readingFaulty_iff]
        intro hout
        have := hout x rfl
        omega
      rw [readTemperature, takeReading_of_sound hsound] at hend
      exact ⟨hend.freeze, hend.overheat, hend⟩
    · rw [readTemperature, takeReading_of_faulty ((readingFaulty_iff value).mpr hbad)] at hend
      exact ⟨hend.sensor_fault rfl, hend.freeze, hend.overheat, hend⟩

end Sys2Proof.Machine
end

section
/-! SUPPORT. Proof of O50: a stage switched at the end of its minimum time, and the end of an event that finds the station at rest. -/

namespace Sys2Proof.Machine

/-! ## The min-on time -/

/-- The end of an event calls a HOLDING stage past its min-on time again, or switches it off (R115, R116). -/
theorem EventFrame.holding_ends {before s t : State} (h : EventFrame before s t)
    (hminOff : ∀ x ∈ s.cfg.heat.stages, 0 < x.minOff) {k : Nat} {c : StageConfig} {st st' : Stage}
    (hc : s.cfg.heat.stages[k]? = some c) (hst : s.heat.stages[k]? = some st) (hst' : t.heat.stages[k]? = some st')
    (hon : st.on = true) (hdue : st.since + c.minOn * 1000 ≤ s.clock) :
    st'.demand = .called ∨ (st'.on = false ∧ st'.since = s.clock ∧ st'.granted = false) := by
  obtain ⟨-, -, hheld⟩ := h.settled k c st' hc hst'
  have hcfg : t.cfg = s.cfg := congrArg Start.config h.start
  have hrow := h.demands.stages k c st' (hcfg ▸ hc) hst'
  cases hcase : stageCall (isWorking t) (holdRules (rulingEffect t.overrides.heat)) t.heat k st'.call with
  | called tier => exact .inl (hrow.of_called hcase).1
  | released immediate =>
    rw [hcase, StageDemandOk] at hrow
    rcases h.switches hminOff k st st' hst hst' with ⟨hstays, hsince⟩ | ⟨hnow, hcut, -⟩
    · rw [if_pos (hstays.trans hon)] at hrow
      exact absurd ⟨hstays.trans hon, hrow.2.1, hsince ▸ hdue⟩ hheld
    · rw [if_neg (by simp [hcut hon])] at hrow
      exact .inr ⟨hcut hon, hnow, hrow.2.2⟩

/-! ## The min-off time -/

/-- Where no stage is HOLDING, the owners' acting leaves every demand record (R167). -/
theorem driveOwners_records_of_no_holding {s : State} (hformed : StagesFormed s) (hnone : ∀ x ∈ s.heat.stages, x.demand ≠ .holding) :
    demandRecords (driveOwners s) = demandRecords s := by
  have hzero : holdings s = 0 := List.countP_eq_zero.mpr fun x hx => by simpa [isHolding] using hnone x hx
  obtain ⟨-, hfewer⟩ := driveOwners_rest s hformed
  by_contra hchanged
  have hlt := (hfewer hchanged).1
  omega

/-- The end of an event at rest, with no stage HOLDING, is the owners' acting alone (R157, R167). -/
theorem finish_heat_of_rest {s : State} (hrest : publish s s = s) (hnone : ∀ x ∈ s.heat.stages, x.demand ≠ .holding) :
    (finish s .none s).heat = (driveOwners s).heat := by
  have hformed : StagesFormed s := hrest ▸ settleStages_stagesFormed _
  have hwork : workFor s .none s = .none := if_neg (by simp)
  have hloads : settleLoads (s.heat.stages.length + 2) .none s = driveOwners s :=
    if_pos (driveOwners_records_of_no_holding hformed hnone)
  obtain ⟨-, -, -, hheat, -⟩ := measured_rest s (driveOwners s)
  rw [finish, hrest, hwork, hloads, hheat]

/-- The owners' acting energises a CALLED and granted stage past its min-off time and leaves its record (R113, R115). -/
theorem driveOwners_energises {s : State} (hformed : StagesFormed s) {k : Nat} {c : StageConfig} {st : Stage}
    (hc : s.cfg.heat.stages[k]? = some c) (hst : s.heat.stages[k]? = some st) (hoff : st.on = false)
    (hcalled : st.demand = .called) (hgranted : st.granted = true) (hdue : st.since + c.minOff * 1000 ≤ s.clock) :
    (driveOwners s).heat.stages[k]? = some { st with on := true, since := s.clock } := by
  obtain ⟨tier, hrow, htier⟩ := (hformed k c st hc hst).row_called hoff hcalled
  rw [driveOwners_stages, formStages_stages, formStages_getElem? _ _ _ _ 0 k _ _ c hc, switchStages_getElem? _ _ _ _ c hc, hst,
    Option.map_some, Option.map_some, switchStage_energises hoff hcalled hgranted hdue, Nat.zero_add]
  rw [stageRow] at hrow
  rw [hrow, formStage, ← htier, ← hcalled]

/-- Settles O50: the min-on time by `EventFrame.holding_ends`; at rest the end of the event is the owners' acting, which energises
the stage. -/
theorem stageMinimumTimes : Obligations.StageMinimumTimes := by
  intro s k c st hrun hc hst hminOff
  refine ⟨fun hon hholding hdue _ => ?_, fun hoff hcalled hgranted hdue => ?_⟩
  · have htest := (stageTest_iff s (reached_minOnDue_iff s.clock) k).mpr ⟨hrun, c, st, hc, hst, hon, hholding, hdue⟩
    obtain ⟨t, hexec, hend⟩ := event_of_due htest s .none s s
    exact ⟨t, hexec, hend, fun st' hst' => hend.holding_ends hminOff hc hst hst' hon hdue⟩
  · have htest := (stageTest_iff s (reached_minOffDue_iff s.clock) k).mpr ⟨hrun, c, st, hc, hst, hoff, hcalled, hgranted, hdue⟩
    refine ⟨_, congrArg Host.Outcome.next (if_pos htest), finish_frame s .none s, fun hrest hnone => ?_⟩
    have hformed : StagesFormed s := hrest ▸ settleStages_stagesFormed _
    rw [finish_heat_of_rest hrest hnone]
    exact driveOwners_energises hformed hc hst hoff hcalled hgranted hdue

end Sys2Proof.Machine
end

section
/-! SUPPORT. Proof of O51: a level and a channel taking a sample, the bay gas class formed after it, and its two alarm conditions. -/

namespace Sys2Proof.Machine

/-! ## One level, one channel -/

/-- A level's run counts the samples that speak against its state, and at its window the level changes over (R121). -/
theorem judgeLevel_eq (wa wc th band n : Nat) (l : GasLevel) : judgeLevel wa wc th band n l =
    (let counts : Bool := if l.asserted then decide (n < th - band) else decide (th ≤ n)
     let window := if l.asserted then wc else wa
     if counts then (if window ≤ l.run + 1 then { asserted := !l.asserted, run := 0 } else { l with run := l.run + 1 })
     else { l with run := 0 }) := by
  obtain ⟨asserted, run⟩ := l
  cases asserted <;> simp [judgeLevel]

/-- The range check leaves nothing of an open circuit or a value above full scale (R120). -/
theorem inRange_of_faulty {c : GasConfig} {sample : Option Nat} (h : ∀ n, sample = some n → c.fullScale < n) :
    inRange c sample = none :=
  Option.filter_eq_none_iff.mpr fun n hn => by simpa using h n hn

/-- The range check leaves a value up to full scale (R120). -/
theorem inRange_of_sound {c : GasConfig} {n : Nat} (h : n ≤ c.fullScale) : inRange c (some n) = some n :=
  Option.filter_eq_some_iff.mpr ⟨rfl, decide_eq_true h⟩

/-- A faulty sample faults the channel with its runs at 0, and its levels stand (R120, R121). -/
theorem takeSample_of_faulty {c : GasConfig} {sample : Option Nat} (h : ∀ n, sample = some n → c.fullScale < n)
    (wa wc : Nat) (g : GasChannel) : takeSample wa wc c sample g = { g with
      last := .faulty, fault := true, clearRun := 0
      action := { g.action with run := 0 }, critical := { g.critical with run := 0 } } := by
  rw [takeSample, inRange_of_faulty h]

/-- A sound sample is held, both levels are judged by it, and a fault ends with the sample that fills the clear window (R120,
R121). -/
theorem takeSample_of_sound {c : GasConfig} {n : Nat} (h : n ≤ c.fullScale) (wa wc : Nat) (g : GasChannel) :
    takeSample wa wc c (some n) g = { g with
      last := .value n
      fault := g.fault && decide (g.clearRun + 1 < wc)
      clearRun := if g.fault = true ∧ g.clearRun + 1 < wc then g.clearRun + 1 else 0
      action := judgeLevel wa wc c.action c.band n g.action
      critical := judgeLevel wa wc c.critical c.band n g.critical } := by
  rw [takeSample, inRange_of_sound h]
  cases hfault : g.fault with
  | false => simp
  | true =>
    by_cases hwindow : wc ≤ g.clearRun + 1
    · simp [hwindow]
    · simp [hwindow, not_le.mp hwindow]

/-! ## The bay gas class -/

theorem channelClass_eq (g : GasChannel) : channelClass g =
    if g.critical.asserted then .critical else if g.action.asserted ∨ g.fault then .action else .none := by
  simp [channelClass]

/-- The configured limits of a gas channel (Table 27). -/
def gasConfigOf (g : Gas) (c : AirConfig) : GasConfig :=
  match g with
  | .co => c.co
  | .no2 => c.no2

/-- A sample writes one channel's record, and the bay gas class is formed from both (R122). -/
theorem sampleGas_eq (g : Gas) (value : Option Nat) (s : State) {x : GasChannel}
    (h : sampleChannel s.cfg.air (gasConfigOf g s.cfg.air) value (gasChannelOf g s.air) = x) :
    sampleGas g value s = s.setAir (formGasClass { s.air with
      co := if g = .co then x else s.air.co, no2 := if g = .no2 then x else s.air.no2 }) := by
  subst h
  cases g <;> rfl

section Ended

variable {before s t : State} (h : EventFrame before s t)

include h

/-- GAS_CRITICAL is active exactly in class CRITICAL (R149, Table 37). -/
theorem EventFrame.gas_critical : conditionSet t.alarms.active 0 = true ↔ t.air.gasClass = .critical := by
  rw [h.condition (by decide)]
  exact decide_eq_true_iff

/-- GAS_ACTION is active exactly in class ACTION or CRITICAL (R149, Table 37). -/
theorem EventFrame.gas_action :
    conditionSet t.alarms.active 1 = true ↔ t.air.gasClass = .action ∨ t.air.gasClass = .critical := by
  have hcause : conditionSet t.alarms.active 1 = decide (t.air.gasClass ≠ .none) := h.condition (by decide)
  rw [hcause, decide_eq_true_iff]
  cases t.air.gasClass <;> simp

/-- SENSOR_FAULT is active while a gas channel is in fault (R120, Table 37). -/
theorem EventFrame.gas_sensor_fault (g : Gas) (hfault : (gasChannelOf g s.air).fault = true) :
    conditionSet t.alarms.active 7 = true := by
  have hcause : conditionSet t.alarms.active 7 = (t.heat.fault || s.air.co.fault || s.air.no2.fault) := by
    rw [h.condition (by decide), ← h.co, ← h.no2]
    rfl
  rw [hcause]
  cases g with
  | co => simp [show s.air.co.fault = true from hfault]
  | no2 => simp [show s.air.no2.fault = true from hfault]

end Ended

/-- Settles O51: the channel's record by `takeSample_of_sound` and `takeSample_of_faulty`, the class formed with it by
`sampleGas_eq`, and the conditions by what the end of an event makes of their causes. -/
theorem gasSample : Obligations.GasSample := by
  intro s g value hrun k c ch level classOf withChannel hdue
  have hclass : channelClass = classOf := funext channelClass_eq
  have hsampled {x : GasChannel} (hx : sampleChannel k c value ch = x) : sampleGas g value s = withChannel x := by
    rw [sampleGas_eq g value s hx, formGasClass, hclass]
    rfl
  have hsample : sampleDue g s = true := by
    rw [sampleDue, hrun, Bool.true_and]
    exact decide_eq_true hdue
  obtain ⟨t, hexec, hend⟩ := event_of_due hsample s .none (sampleGas g value s) s
  refine ⟨t, hexec, hend.gas_critical, hend.gas_action, fun n hn hfull => ?_, fun hfaulty => ?_⟩
  · subst hn
    rw [hsampled (by rw [sampleChannel, takeSample_of_sound hfull, judgeLevel_eq, judgeLevel_eq])] at hend
    exact hend
  · rw [hsampled (by rw [sampleChannel, takeSample_of_faulty hfaulty])] at hend
    refine ⟨hend.gas_sensor_fault g ?_, hend⟩
    cases g <;> rfl

end Sys2Proof.Machine
end

section
/-! SUPPORT. The search that finds a stack's ruling entry and its weakest one, the cases of an entry offered, and the statement
about them (R137, R138). -/

namespace Sys2Proof.Machine

/-! ## The search through a stack -/

/-- A search in the order of arrival: the next entry takes the place of the one found so far where `takes` says so. -/
def search (takes : OverrideEntry → OverrideEntry → Bool) (stack : List OverrideEntry) : Option OverrideEntry :=
  stack.foldl (fun best e => some (best.elim e fun b => if takes b e then e else b)) none

theorem ruling_eq_search (stack : List OverrideEntry) :
    ruling stack = search (fun b e => decide (b.precedence ≤ e.precedence)) stack := by
  unfold ruling search
  congr 1
  funext best e
  cases best with
  | none => rfl
  | some b => by_cases h : b.precedence ≤ e.precedence <;> simp [h]

theorem weakest_eq_search (stack : List OverrideEntry) :
    weakest stack = search (fun b e => decide (e.precedence < b.precedence)) stack := by
  unfold weakest search
  congr 1
  funext best e
  cases best with
  | none => rfl
  | some b => by_cases h : e.precedence < b.precedence <;> simp [h]

section Search

variable {takes : OverrideEntry → OverrideEntry → Bool}

theorem search_append_singleton (l : List OverrideEntry) (e : OverrideEntry) :
    search takes (l ++ [e]) = some ((search takes l).elim e fun b => if takes b e then e else b) := by
  simp [search]

theorem mem_of_search {l : List OverrideEntry} {x : OverrideEntry} (h : search takes l = some x) : x ∈ l := by
  induction l using List.reverseRecOn generalizing x with
  | nil => simp [search] at h
  | append_singleton l e ih =>
    rw [search_append_singleton] at h
    cases hl : search takes l with
    | none => simp_all
    | some b =>
      rw [hl, Option.elim_some, Option.some.injEq] at h
      split at h
      · simp [h]
      · exact List.mem_append_left [e] (ih (hl.trans (congrArg some h)))

/-- The search ends with an entry that takes the place of every earlier one and gives it up to no later one. -/
theorem search_eq {w : OverrideEntry} {pre post : List OverrideEntry} (hpre : ∀ x ∈ pre, takes x w = true)
    (hpost : ∀ x ∈ post, takes w x = false) : search takes (pre ++ w :: post) = some w := by
  induction post using List.reverseRecOn with
  | nil =>
    rw [search_append_singleton]
    cases hfound : search takes pre with
    | none => rfl
    | some b => simp [hpre b (mem_of_search hfound)]
  | append_singleton post e ih =>
    have hw : search takes (pre ++ w :: post) = some w := ih fun x hx => hpost x (List.mem_append_left [e] hx)
    rw [← List.cons_append, ← List.append_assoc, search_append_singleton, hw]
    simp [hpost e (by simp)]

end Search

theorem ruling_eq {w : OverrideEntry} {pre post : List OverrideEntry} (hpre : ∀ x ∈ pre, x.precedence ≤ w.precedence)
    (hpost : ∀ x ∈ post, x.precedence < w.precedence) : ruling (pre ++ w :: post) = some w := by
  rw [ruling_eq_search]
  exact search_eq (fun x hx => decide_eq_true (hpre x hx)) fun x hx => decide_eq_false (not_le.mpr (hpost x hx))

theorem weakest_eq {w : OverrideEntry} {pre post : List OverrideEntry} (hpre : ∀ x ∈ pre, w.precedence < x.precedence)
    (hpost : ∀ x ∈ post, w.precedence ≤ x.precedence) : weakest (pre ++ w :: post) = some w := by
  rw [weakest_eq_search]
  exact search_eq (fun x hx => decide_eq_true (hpre x hx)) fun x hx => decide_eq_false (not_lt.mpr (hpost x hx))

/-! ## An entry offered -/

section Offered

variable {e : OverrideEntry} {stack : List OverrideEntry}

theorem any_sameIdentity_iff : stack.any (sameIdentity e.source e.origin) = true ↔
    ∃ x ∈ stack, x.source = e.source ∧ x.origin = e.origin := by
  simp [List.any_eq_true, sameIdentity_iff]

theorem not_any_sameIdentity (h : ∀ x ∈ stack, ¬(x.source = e.source ∧ x.origin = e.origin)) :
    ¬stack.any (sameIdentity e.source e.origin) = true := by
  rw [any_sameIdentity_iff]
  exact fun ⟨x, hx, hsame⟩ => h x hx hsame

theorem offerEntry_of_known (h : ∃ x ∈ stack, x.source = e.source ∧ x.origin = e.origin) :
    offerEntry e stack = withoutIdentity e.source e.origin stack ++ [e] := if_pos (any_sameIdentity_iff.mpr h)

theorem offerEntry_of_room (hnew : ∀ x ∈ stack, ¬(x.source = e.source ∧ x.origin = e.origin)) (hroom : stack.length < 4) :
    offerEntry e stack = stack ++ [e] := by
  rw [offerEntry, if_neg (not_any_sameIdentity hnew), if_pos hroom]

theorem offerEntry_of_full (hnew : ∀ x ∈ stack, ¬(x.source = e.source ∧ x.origin = e.origin)) (hfull : ¬stack.length < 4)
    {w : OverrideEntry} (hweakest : weakest stack = some w) : offerEntry e stack =
      if w.precedence < e.precedence then withoutIdentity w.source w.origin stack ++ [e] else stack := by
  rw [offerEntry, if_neg (not_any_sameIdentity hnew), if_neg hfull, hweakest]

/-- In a stack of different identities the removal of one takes out its entry alone. -/
theorem withoutIdentity_of_apart {w : OverrideEntry} {pre post : List OverrideEntry}
    (h : (pre ++ w :: post).Pairwise fun a b => ¬(a.source = b.source ∧ a.origin = b.origin)) :
    withoutIdentity w.source w.origin (pre ++ w :: post) = pre ++ post := by
  obtain ⟨-, hpost, hpre⟩ := List.pairwise_append.mp h
  have hkept {x : OverrideEntry} (hx : ¬(x.source = w.source ∧ x.origin = w.origin)) :
      (!sameIdentity w.source w.origin x) = true := by
    rw [Bool.not_eq_true', Bool.eq_false_iff, Ne, sameIdentity_iff]
    exact hx
  have hpre' : pre.filter (fun x => !sameIdentity w.source w.origin x) = pre :=
    List.filter_eq_self.mpr fun x hx => hkept (hpre x hx w List.mem_cons_self)
  have hpost' : post.filter (fun x => !sameIdentity w.source w.origin x) = post :=
    List.filter_eq_self.mpr fun x hx => hkept fun ⟨hsource, horigin⟩ =>
      List.rel_of_pairwise_cons hpost hx ⟨hsource.symm, horigin.symm⟩
  have hself : ¬(!sameIdentity w.source w.origin w) = true := by simp [sameIdentity]
  simp only [withoutIdentity, List.filter_append, List.filter_cons, if_neg hself, hpre', hpost']

/-- An entry above all others finds a place, whoever has to go (R138). -/
theorem mem_offerEntry_of_above (h : ∀ x ∈ stack, x.precedence < e.precedence ∨ (x.source = e.source ∧ x.origin = e.origin)) :
    e ∈ offerEntry e stack := by
  by_cases hknown : ∃ x ∈ stack, x.source = e.source ∧ x.origin = e.origin
  · simp [offerEntry_of_known hknown]
  · have hnew : ∀ x ∈ stack, ¬(x.source = e.source ∧ x.origin = e.origin) := fun x hx hsame => hknown ⟨x, hx, hsame⟩
    by_cases hroom : stack.length < 4
    · simp [offerEntry_of_room hnew hroom]
    · obtain ⟨w, hw, hweakest⟩ := weakest_some (stack := stack) (by rintro rfl; simp at hroom)
      have hlower : w.precedence < e.precedence := (h w hw).resolve_right (hnew w hw)
      simp [offerEntry_of_full hnew hroom hweakest, hlower]

end Offered

/-- Settles O22: each case of the offer by its own lemma, the limits by `StackOk.offerEntry`, and the weakest and the ruling entry by
the search that finds them (`search_eq`). -/
theorem overrideStacks : Obligations.OverrideStacks := by
  refine ⟨fun e stack => ⟨offerEntry_of_known, offerEntry_of_room, ?_, StackOk.offerEntry, fun _ => mem_offerEntry_of_above⟩,
    rfl, fun _ _ _ => ruling_eq⟩
  intro pre w post hstack hnew hfull hpre hpost hapart
  subst hstack
  rw [offerEntry_of_full hnew (by omega) (weakest_eq hpre hpost), withoutIdentity_of_apart hapart]

end Sys2Proof.Machine
end

section
/-! SUPPORT. A matched directive heard and delivered, its fields, and the statements about the kinds that place an entry, about
RELEASE, ALARM_ACK and the flags (R140 to R147, R149, R150). -/

namespace Sys2Proof.Machine

/-! ## A matched directive -/

/-- The directive kinds by their codes (Table 36). -/
def directiveKinds : List DirectiveKind :=
  [.lightSet, .heatHold, .heatSetpoint, .heatBoost, .ventPurge, .ventStop, .release, .alarmAck, .restart]

theorem directiveKind_of_code {p : Vector Byte 9} {n : Nat} (h : p[1].toNat % 16 = n) : directiveKind p = directiveKinds[n]? := by
  have hlt : n < 16 := h ▸ Nat.mod_lt _ (by decide)
  unfold directiveKind loNibble
  rw [h]
  interval_cases n <;> rfl

section Matched

variable {s : State} {sender : Station} {p : Vector Byte 9} {kind : DirectiveKind} (hrun : s.start.running = true)
  (hrecv : s.line.engine = .receive) (hother : sender.toNat ≠ s.start.strapped)
  (hmatch : directiveMatches s.start.config.header.group p = true) (hkind : directiveKind p = some kind)

include hrun hrecv hother hmatch hkind

/-- A matched directive of its row's kind is heard and delivered, and its event ends (R13). -/
theorem takeDirective_event (deliver : State → State) :
    ∃ t, (Host.Outcome.next (takeDirective kind sender p deliver s) : Answer) = .next t ∧
      EventFrame s (deliver (heard kindDirective sender p.toList s)) t := by
  refine ⟨_, rfl, ?_⟩
  rw [takeDirective, if_pos hkind, if_pos hmatch, takeFrame_of_other hrun hrecv hother]
  exact finish_frame s .none _

/-- A directive with an effect offers its stack an entry (R140). -/
theorem placeEntry_event {effect : Effect} (heffect : directiveEffect kind p = some effect) (k : StackId) :
    ∃ t, (Host.Outcome.next (takeDirective kind sender p (placeEntry kind k sender p) s) : Answer) = .next t ∧
      EventFrame s ((heard kindDirective sender p.toList s).setOverrides
        (onStack k (offerEntry (directiveEntry s.clock sender p effect)) s.overrides)) t := by
  have hheard := heard_frame kindDirective sender p.toList s
  have hevent := takeDirective_event hrun hrecv hother hmatch hkind (placeEntry kind k sender p)
  simp only [placeEntry, heffect, onStackOf, hheard.clock, hheard.overrides] at hevent
  exact hevent

/-- A directive that names no valid choice is ignored whole (R140). -/
theorem placeEntry_ignored (heffect : directiveEffect kind p = none) (k : StackId) :
    ∃ t, (Host.Outcome.next (takeDirective kind sender p (placeEntry kind k sender p) s) : Answer) = .next t ∧
      EventFrame s (heard kindDirective sender p.toList s) t := by
  have hevent := takeDirective_event hrun hrecv hother hmatch hkind (placeEntry kind k sender p)
  simp only [placeEntry, heffect] at hevent
  exact hevent

end Matched

/-! ## The fields of an entry -/

theorem word16_eq (hi lo : Byte) : word16 hi lo = hi.toNat * 256 + lo.toNat := by
  have hlo := lo.isLt
  rw [word16, half, BitVec.toNat_append, ← Nat.shiftLeft_add_eq_or_of_lt hlo, Nat.shiftLeft_eq]

/-- The entry of a directive, field by field (R140). -/
theorem directiveEntry_eq (now : Nat) (sender : Station) (p : Vector Byte 9) (effect : Effect) :
    directiveEntry now sender p effect =
      { source := .directive, origin := some sender, precedence := max 1 (min 6 p[2].toNat), effect := effect
        expiry := if p[3].toNat * 256 + p[4].toNat = 0 then none
          else some (now + (p[3].toNat * 256 + p[4].toNat) * 1000) } := by
  simp only [directiveEntry, directiveDuration, word16_eq]
  rfl

theorem lowNibble_eq (b : Byte) : b.extractLsb' 0 4 = BitVec.ofNat 4 b.toNat := by
  apply BitVec.eq_of_toNat_eq
  simp

theorem ofNat_four_eq_zero_iff (n : Nat) : BitVec.ofNat 4 n = 0 ↔ n % 16 = 0 := by
  rw [← BitVec.toNat_inj]
  simp

theorem directiveEffect_lightSet (p : Vector Byte 9) : directiveEffect .lightSet p =
    if p[6].toNat % 16 = 0 then none else some (.level (min 100 p[5].toNat) (BitVec.ofNat 4 p[6].toNat)) := by
  simp only [directiveEffect, lowNibble_eq, ofNat_four_eq_zero_iff]

theorem directiveEffect_ventPurge (p : Vector Byte 9) : directiveEffect .ventPurge p =
    if p[5].toNat = 0 then some (.purge .supply (min 100 p[6].toNat / 5 * 5))
    else if p[5].toNat = 1 then some (.purge .exhaust (min 100 p[6].toNat / 5 * 5)) else none := by
  simp only [directiveEffect, roundDown]
  generalize p[5].toNat = code
  match code with
  | 0 => rfl
  | 1 => rfl
  | n + 2 => simp [airDirOfCode]

/-- Settles O23: each kind's effect is offered to its stack (`placeEntry_event`) or there is none (`placeEntry_ignored`). -/
theorem placingDirectives : Obligations.PlacingDirectives := by
  intro s sender p hrun hrecv hother hmatch u duration entry onLight onHeat onVent
  have hentry (e : Effect) : directiveEntry s.clock sender p e = entry e := directiveEntry_eq s.clock sender p e
  have hplaced {kind : DirectiveKind} (hkind : directiveKind p = some kind) {e : Effect}
      (heffect : directiveEffect kind p = some e) (k : StackId) :
      ∃ t, (Host.Outcome.next (takeDirective kind sender p (placeEntry kind k sender p) s) : Answer) = .next t ∧
        EventFrame s (u.setOverrides (onStack k (offerEntry (entry e)) s.overrides)) t :=
    hentry e ▸ placeEntry_event hrun hrecv hother hmatch hkind heffect k
  have hignored {kind : DirectiveKind} (hkind : directiveKind p = some kind) (heffect : directiveEffect kind p = none) :=
    placeEntry_ignored hrun hrecv hother hmatch hkind heffect
  refine ⟨fun h => ?_, fun h => hplaced (directiveKind_of_code h) rfl .heat, fun h => hplaced (directiveKind_of_code h) rfl .heat,
    fun h => hplaced (directiveKind_of_code h) rfl .heat, fun h => ?_, fun h => hplaced (directiveKind_of_code h) rfl .vent⟩
  · have heffect := directiveEffect_lightSet p
    split_ifs at heffect ⊢
    · exact hignored (directiveKind_of_code h) heffect .light
    · exact hplaced (directiveKind_of_code h) heffect .light
  · have heffect := directiveEffect_ventPurge p
    split_ifs at heffect ⊢
    · exact hplaced (directiveKind_of_code h) heffect .vent
    · exact hplaced (directiveKind_of_code h) heffect .vent
    · exact hignored (directiveKind_of_code h) heffect .vent

/-! ## RELEASE -/

/-- What spares an entry in a stack that a RELEASE names (R147). -/
theorem not_releases_eq (all : Bool) (sender : Station) (e : OverrideEntry) :
    (!releases all sender e) = decide ¬(e.source = .directive ∧ (all = true ∨ e.origin = some sender)) := by
  simp [releases]

/-! ## The flags -/

/-- A latched flag is held clear in COMPARATOR mode; in LATCHED mode it stays, and is set as the active flag becomes set (R149). -/
theorem updateAlarms_latched (modes now : Half) (was : Alarms) {n : Nat} (hn : n < 16) :
    conditionSet (updateAlarms modes now was).latched n = (conditionSet modes n &&
      (conditionSet was.latched n || (conditionSet now n && !conditionSet was.active n))) := by
  have hbit : 15 - n < 16 := by omega
  simp [conditionSet, updateAlarms, hbit, Bool.and_comm]

/-- The active flag of a condition is its cause (R149, Table 37). -/
theorem conditionSet_alarmCauses (s : State) {n : Nat} (hn : n < 16) :
    conditionSet (packFlags (alarmCauses s)) n = (alarmCauses s).getD n false := conditionSet_packFlags _ rfl n hn

/-- Settles O24: the flags by `conditionSet_alarmCauses` and `updateAlarms_latched`; the two directives are delivered as any other
(`takeDirective_event`). -/
theorem releaseAndAcknowledge : Obligations.ReleaseAndAcknowledge := by
  refine ⟨?_, ?_⟩
  · intro s modes was a active
    have hactive {n : Nat} (hn : n < 16) : active n ↔ (alarmCauses s).getD n false = true := by
      rw [← conditionSet_alarmCauses s hn]
      exact Iff.rfl
    refine ⟨?_, ?_, ?_, ?_, ?_, ?_, ?_, ?_, ?_, ?_, ?_, ?_, ?_, ?_, ?_, ?_, fun n hn => updateAlarms_latched modes _ was hn⟩
    all_goals
      refine (hactive (by decide)).trans ?_
      simp [alarmCauses, sensorFault, forcedOutput, or_assoc]
  · intro s sender p hrun hrecv hother hmatch u keeps released
    have hoverrides : u.overrides = s.overrides := (heard_frame 3 sender p.toList s).overrides
    refine ⟨fun h => ?_, fun h => ?_⟩
    · have hevent := takeDirective_event hrun hrecv hother hmatch (directiveKind_of_code h) (releaseEntries sender p)
      have hkeeps : (fun e => !releases (releaseAll p) sender e) = keeps := funext (not_releases_eq _ sender)
      change ∃ t, _ ∧ EventFrame s (releaseEntries sender p u) t at hevent
      simp only [releaseEntries, releaseStack, hkeeps, hoverrides] at hevent
      exact hevent
    · exact takeDirective_event hrun hrecv hother hmatch (directiveKind_of_code h) acknowledgeAlarms

end Sys2Proof.Machine
end

section
/-! SUPPORT. Proof of O25: a matched RESTART begins a start sequence from what the accepted frame leaves (R148, R174, R177). -/

namespace Sys2Proof.Machine

/-- A matched RESTART begins a start sequence at the moment of acceptance (R148). -/
theorem execRestart_of_matched {s : State} {sender : Station} {p : Vector Byte 9} (hrun : s.start.running = true)
    (hrecv : s.line.engine = .receive) (hother : sender.toNat ≠ s.start.strapped)
    (hmatch : directiveMatches s.start.config.header.group p = true) (hkind : directiveKind p = some .restart) :
    exec (.restart sender p) s = .next (beginRestart (heard kindDirective sender p.toList s)) := by
  change execRestart sender p s = _
  rw [execRestart, if_pos hkind, if_pos hmatch, takeFrame_of_other hrun hrecv hother]

/-- Nothing of what the accepted frame changes outlasts the restart that it brings (R177). -/
theorem beginRestart_heard (kind : Nat) (sender : Station) (payload : List Byte) (s : State) :
    beginRestart (heard kind sender payload s) = beginRestart s := by
  have h := heard_frame kind sender payload s
  have hcauses : (heard kind sender payload s).view.causes = s.view.causes := by rw [h.view]
  have hlost : (heard kind sender payload s).view.timebaseLost = s.view.timebaseLost := by rw [h.view]
  have hmark : (heard kind sender payload s).view.timebaseMark = s.view.timebaseMark := by rw [h.view]
  simp only [beginRestart, h.pending, h.clock, h.start, h.shift, h.doors, h.alloc, hcauses, hlost, hmark]

/-! ## The outputs during the start sequence -/

section Starting

variable {s : State}

/-- A restart leaves a lighting channel dark, which is duty 100 for FOLLOW_INVERTED (R174). -/
theorem channelDuty_of_restart (hrun : s.start.running = false) (hcause : s.start.cause = .restart) (mode : ChannelMode)
    (ch : Channel) : channelDuty s mode ch = if mode = .followInverted then 100 else 0 := by
  simp [channelDuty, hrun, hcause]

theorem fanDrive_of_starting (hrun : s.start.running = false) (f : Fan) : fanDrive s f = none := by
  simp [fanDrive, hrun]

theorem attentionPin_of_starting (hrun : s.start.running = false) : attentionPin s = none := by
  simp [attentionPin, hrun]

theorem curtainOutputs_of_starting (hrun : s.start.running = false) : ∀ on ∈ curtainOutputs s, on = false := by
  simp [curtainOutputs, hrun]

end Starting

/-- A list taken side by side with a constant one is its own beginning, mapped. -/
theorem zipWith_replicate_right {α β γ : Type} (f : α → β → γ) (l : List α) (n : Nat) (b : β) :
    List.zipWith f l (List.replicate n b) = (l.take n).map (f · b) := by
  induction l generalizing n with
  | nil => simp
  | cons a l ih => cases n <;> simp [List.replicate_succ, ih]

theorem lightingDuties_beginRestart (s : State) : lightingDuties (beginRestart s) =
    (s.start.config.lighting.channels.take 4).map fun k => if k.mode = .followInverted then 100 else 0 := by
  have hduty (k : ChannelConfig) (ch : Channel) :
      channelDuty (beginRestart s) k.mode ch = if k.mode = .followInverted then 100 else 0 :=
    channelDuty_of_restart rfl rfl k.mode ch
  simp only [lightingDuties, hduty]
  exact zipWith_replicate_right _ _ 4 Channel.dark

/-! ## The doors -/

theorem gatherOpen_cycles (now : Nat) (d : Door) : (gatherOpen now d).cycles = d.cycles := by
  unfold gatherOpen
  split <;> rfl

/-- Of a door only the accumulators outlast a restart (R104). -/
theorem restartDoors_records (now : Nat) (b : Doors) :
    (restartDoors now b).records.map (fun d => (d.state, d.settling, d.cycles, d.openSeconds, d.remainder)) =
      b.records.map fun d => (DoorState.closed, true, d.cycles, (gatherOpen now d).openSeconds, (gatherOpen now d).remainder) := by
  simp [restartDoors, freshDoor, gatherOpen_cycles]

/-- Settles O25: `beginRestart` writes the blocks out, the doors' records are those of `restartDoors_records`, and no output is on
while the sequence is under way. -/
theorem restartKeeps : Obligations.RestartKeeps := by
  intro s sender p hrun hrecv hother hmatch hcode
  have hexec := execRestart_of_matched hrun hrecv hother hmatch (directiveKind_of_code hcode)
  rw [beginRestart_heard] at hexec
  exact ⟨beginRestart s, hexec, rfl, rfl, rfl, rfl, rfl, rfl, rfl, rfl, rfl, rfl, rfl, rfl, rfl,
    restartDoors_records s.clock s.doors, rfl, rfl, rfl, lightingDuties_beginRestart s, rfl, curtainOutputs_of_starting rfl, rfl,
    fanDrive_of_starting rfl _, fanDrive_of_starting rfl _, attentionPin_of_starting rfl⟩

end Sys2Proof.Machine
end

section
/-! SUPPORT. The records that the allocator's rounds withdraw, and the stages that an event leaves idle: where an event's end leaves the
demand records of the state it began in, it asks for no recomputation of its own (R154, R157, R167). -/

namespace Sys2Proof.Machine

/-! ## Idle stages -/

/-- A stage that is OFF and granted nothing. -/
def Idle (st : Stage) : Prop := st.on = false ∧ st.granted = false

/-- The stages that are idle in `l` are idle in `l'`. -/
def IdleKept (l l' : List Stage) : Prop := List.Forall₂ (fun a b => Idle a → Idle b) l l'

theorem IdleKept.refl (l : List Stage) : IdleKept l l := List.forall₂_same.mpr fun _ _ h => h

theorem IdleKept.trans {a b c : List Stage} (h : IdleKept a b) (k : IdleKept b c) : IdleKept a c := by
  induction h generalizing c with
  | nil => exact k
  | cons h1 _ ih =>
    cases k with
    | cons k1 ks => exact .cons (fun hidle => k1 (h1 hidle)) (ih ks)

/-- A stage's demand switches none on and grants nothing (R113, R114). -/
theorem formStage_idle (now : Nat) (c : StageConfig) (row : StageCall) {st : Stage} (h : Idle st) :
    Idle (formStage now c row st) := by
  cases row with
  | called t => exact h
  | released i =>
    rw [formStage, if_pos h.1]
    exact ⟨h.1, rfl⟩

/-- A stage without a grant is not switched on (R115). -/
theorem switchStage_idle (now : Nat) (c : StageConfig) {st : Stage} (h : Idle st) : switchStage now c st = st := by
  simp [switchStage, h.1, h.2]

theorem formStages_idleKept (now : Nat) (w hold : Bool) (h : Heat) (k : Nat) (cs : List StageConfig) (sts : List Stage) :
    IdleKept sts (formStages now w hold h k cs sts) := by
  induction cs generalizing k sts with
  | nil => cases sts <;> exact .refl _
  | cons c cs ih =>
    cases sts with
    | nil => exact .refl _
    | cons st sts => exact .cons (formStage_idle now c _) (ih _ _)

theorem switchStages_idleKept (now : Nat) (cs : List StageConfig) (sts : List Stage) : IdleKept sts (switchStages now cs sts) := by
  induction cs generalizing sts with
  | nil => cases sts <;> exact .refl _
  | cons c cs ih =>
    cases sts with
    | nil => exact .refl _
    | cons st sts => exact .cons (fun h => (switchStage_idle now c h).symm ▸ h) (ih _)

theorem judgeCallsFrom_idleKept (c : HeatConfig) (fault : Bool) (last : Option Int) (effective : Int) (k : Nat) (sts : List Stage) :
    IdleKept sts (judgeCallsFrom c fault last effective k sts) := by
  induction sts generalizing k with
  | nil => exact .nil
  | cons st sts ih => exact .cons id (ih _)

/-- A stage that takes its old grant back is idle where the stage with that grant was (R114). -/
theorem keepGrant_idleKept {was formed : List Stage} (h : IdleKept was formed) : IdleKept was (alongside keepGrant formed was) := by
  induction h with
  | nil => exact .nil
  | cons hst _ ih => exact .cons (fun hidle => ⟨(hst hidle).1, hidle.2⟩) ih

theorem reformStages_idleKept (s : State) : IdleKept s.heat.stages (reformStages s).heat.stages :=
  keepGrant_idleKept (formStages_idleKept _ _ _ _ _ _ _)

theorem reformHeat_idleKept (s : State) : IdleKept s.heat.stages (reformHeat s).heat.stages :=
  (judgeCallsFrom_idleKept _ _ _ _ _ _).trans (reformStages_idleKept (settleSetpoint s))

theorem driveStages_idleKept (s : State) : IdleKept s.heat.stages (driveStages s).heat.stages := switchStages_idleKept _ _ _

theorem stageReading_idleKept (s : State) : IdleKept s.heat.stages (stageReading s).heat.stages := by
  have hjudged : IdleKept s.heat.stages (s.setHeat (judgeCalls s.cfg.heat s.heat)).heat.stages :=
    judgeCallsFrom_idleKept _ _ _ _ _ _
  unfold stageReading
  exact ((hjudged.trans (reformStages_idleKept _)).trans (driveStages_idleKept _)).trans (reformStages_idleKept _)

theorem publish_idleKept (before s : State) : IdleKept s.heat.stages (publish before s).heat.stages :=
  (judgeCallsFrom_idleKept _ _ _ _ _ _).trans (formStages_idleKept _ _ _ _ _ _ _)

/-- A stage without a record is idle where its demand is that of its row (R113). -/
theorem StageDemandOk.idle {row : StageCall} {st : Stage} (h : StageDemandOk row st) (hnone : stageRecord st = none) : Idle st := by
  cases row with
  | called t =>
    obtain ⟨hdemand, htier⟩ := h
    simp [stageRecord, hdemand, htier] at hnone
  | released immediate =>
    unfold StageDemandOk at h
    cases hon : st.on with
    | true =>
      obtain ⟨-, hdemand, htier⟩ := (if_pos hon).mp h
      simp [stageRecord, hdemand, htier] at hnone
    | false =>
      rw [hon] at h
      obtain ⟨-, -, hgranted⟩ := h
      exact ⟨hon, hgranted⟩

/-- A HOLDING stage is ON, and has its record (R113). -/
theorem StageFormed.of_holding {row : StageCall} {st : Stage} (h : StageFormed row st) (hhold : isHolding st = true) :
    st.on = true ∧ stageRecord st ≠ none := by
  have hdemand : st.demand = .holding := of_decide_eq_true hhold
  cases row with
  | called t =>
    obtain ⟨hcalled, -⟩ := h
    simp [hcalled] at hdemand
  | released immediate =>
    unfold StageFormed at h
    cases hon : st.on with
    | true =>
      obtain ⟨-, -, htier⟩ := (if_pos hon).mp h
      exact ⟨rfl, by simp [stageRecord, hdemand, htier]⟩
    | false =>
      rw [hon] at h
      simp [h.1] at hdemand

/-! ## The rounds withdraw the records of HOLDING stages -/

/-- A round leaves a stage its record, or withdraws that of a HOLDING stage. -/
def RecordStep (a b : Stage) : Prop :=
  (stageRecord b = stageRecord a ∧ isHolding b = isHolding a) ∨
    (isHolding a = true ∧ isHolding b = false ∧ stageRecord a ≠ none ∧ stageRecord b = none)

theorem RecordStep.refl (a : Stage) : RecordStep a a := .inl ⟨rfl, rfl⟩

theorem RecordStep.trans {a b c : Stage} (h : RecordStep a b) (k : RecordStep b c) : RecordStep a c := by
  rcases h with ⟨hrecord, hhold⟩ | ⟨ha, hb, hsome, hnone⟩ <;> rcases k with ⟨krecord, khold⟩ | ⟨kb, kc, ksome, knone⟩
  · exact .inl ⟨krecord.trans hrecord, khold.trans hhold⟩
  · exact .inr ⟨hhold ▸ kb, kc, hrecord ▸ ksome, knone⟩
  · exact .inr ⟨ha, khold.trans hb, hsome, krecord.trans hnone⟩
  · simp [hb] at kb

/-- The stages after some rounds. -/
def RecordsStep (l l' : List Stage) : Prop := List.Forall₂ RecordStep l l'

theorem RecordsStep.refl (l : List Stage) : RecordsStep l l := List.forall₂_same.mpr fun a _ => .refl a

theorem RecordsStep.trans {a b c : List Stage} (h : RecordsStep a b) (k : RecordsStep b c) : RecordsStep a c := by
  induction h generalizing c with
  | nil => exact k
  | cons h1 _ ih =>
    cases k with
    | cons k1 ks => exact .cons (h1.trans k1) (ih ks)

/-- A stage whose row releases it is HOLDING with its record, or has none (R113). -/
theorem formStage_released_record (now : Nat) (c : StageConfig) (i : Bool) (st : Stage) :
    isHolding (formStage now c (.released i) st) = true ∨ stageRecord (formStage now c (.released i) st) = none := by
  simp only [formStage]
  split_ifs
  · exact .inr rfl
  · exact .inr rfl
  · exact .inl rfl

theorem switched_recordStep (now : Nat) (c : StageConfig) (row : StageCall) {st : Stage} (h : StageFormed row st) :
    RecordStep st (formStage now c row (switchStage now c st)) := by
  rcases switched_record now c row st h with hsame | ⟨-, hhold, hdone, -⟩
  · exact .inl hsame
  · obtain ⟨-, hsome⟩ := h.of_holding hhold
    refine .inr ⟨hhold, hdone, hsome, ?_⟩
    cases row with
    | called t =>
      obtain ⟨hcalled, -⟩ := h
      simp [isHolding, hcalled] at hhold
    | released i =>
      rcases formStage_released_record now c i (switchStage now c st) with hholds | hnone
      · simp [hdone] at hholds
      · exact hnone

theorem switched_recordsStep (now : Nat) (w hold : Bool) (h : Heat) (k : Nat) (cs : List StageConfig) (sts : List Stage)
    (hf : ∀ (j : Nat) (c : StageConfig) (st : Stage), cs[j]? = some c → sts[j]? = some st →
      StageFormed (stageCall w hold h (k + j) st.call) st) :
    RecordsStep sts (formStages now w hold h k cs (switchStages now cs sts)) := by
  induction cs generalizing k sts with
  | nil => cases sts <;> exact .refl _
  | cons c cs ih =>
    cases sts with
    | nil => exact .refl _
    | cons st sts =>
      have hcall : (switchStage now c st).call = st.call := switchStage_call _ _ _
      rw [switchStages, formStages, hcall]
      refine .cons (switched_recordStep now c _ (hf 0 c st rfl rfl)) (ih (k + 1) sts fun j c' st' hc hst => ?_)
      rw [Nat.add_assoc, Nat.add_comm 1 j]
      exact hf (j + 1) c' st' (by simpa using hc) (by simpa using hst)

theorem driveOwners_recordsStep {a : State} (hf : StagesFormed a) : RecordsStep a.heat.stages (driveOwners a).heat.stages := by
  rw [driveOwners_stages, formStages_stages]
  refine switched_recordsStep _ _ _ _ 0 _ _ fun j c st hc hst => ?_
  rw [Nat.zero_add]
  exact hf j c st hc hst

theorem realise_recordsStep (s : State) : RecordsStep s.heat.stages (realise s).heat.stages := by
  have hgranted (sts : List Stage) (g : List Nat) :
      RecordsStep sts (alongside (fun (st : Stage) x => { st with granted := decide (x ≠ 0) }) sts g) := by
    induction sts generalizing g with
    | nil => cases g <;> exact .nil
    | cons st sts ih =>
      cases g with
      | nil => exact .refl _
      | cons x xs => exact .cons (.inl ⟨rfl, rfl⟩) (ih xs)
  unfold realise
  generalize grantedSettings s = g
  exact hgranted _ _

theorem allocate_recordsStep (work : Work) (s : State) : RecordsStep s.heat.stages (allocate work s).heat.stages := by
  cases work with
  | none => exact .refl _
  | realise => exact realise_recordsStep s
  | recompute =>
    have h := realise_recordsStep (recompute s)
    rwa [recompute_heat] at h

theorem round_recordsStep (work : Work) {p : State} (hf : StagesFormed p) :
    RecordsStep p.heat.stages (driveOwners (allocate work p)).heat.stages := by
  obtain ⟨-, hformed, -⟩ := allocated work p
  exact (allocate_recordsStep work p).trans (driveOwners_recordsStep (hformed hf))

theorem settleLoads_recordsStep (rounds : Nat) (work : Work) {p : State} (hf : StagesFormed p) :
    RecordsStep p.heat.stages (settleLoads rounds work p).heat.stages := by
  induction rounds generalizing work p with
  | zero => exact .refl _
  | succ n ih =>
    have hround := round_recordsStep work hf
    unfold settleLoads
    dsimp only
    split
    · exact hround
    · exact hround.trans (ih .recompute (settleStages_stagesFormed _))

end Sys2Proof.Machine
end

section
/-! SUPPORT. An event that leaves the demand records and the link state, without a ground of its own for a recomputation, leaves
requests, grants, settle delay and CAP_EXCEEDED (R157, R161). -/

namespace Sys2Proof.Machine

/-- The partner of an element in a list related place by place. -/
theorem getElem?_of_forall₂ {α β : Type} {R : α → β → Prop} {l : List α} {l' : List β} (h : List.Forall₂ R l l') {k : Nat} {a : α}
    (ha : l[k]? = some a) : ∃ b, l'[k]? = some b ∧ R a b := by
  induction h generalizing k with
  | nil => simp at ha
  | @cons x b xs bs hxb _ ih =>
    cases k with
    | zero =>
      simp only [List.getElem?_cons_zero, Option.some.injEq] at ha
      exact ⟨b, rfl, ha ▸ hxb⟩
    | succ k => exact ih (by simpa using ha)

/-! ## The records of the stages' places -/

/-- Two lists of stages with the same records at the configured places. -/
theorem stageRecords_ext {cs : List StageConfig} {a b : List Stage} (hlength : a.length = b.length)
    (h : ∀ (k : Nat) (c : StageConfig) (x y : Stage), cs[k]? = some c → a[k]? = some x → b[k]? = some y →
      stageRecord x = stageRecord y) : stageRecords cs a = stageRecords cs b := by
  induction cs generalizing a b with
  | nil => rfl
  | cons c cs ih =>
    cases a with
    | nil => rw [List.eq_nil_of_length_eq_zero hlength.symm]
    | cons x a =>
      cases b with
      | nil => simp at hlength
      | cons y b =>
        have hrest := ih (by simpa using hlength) fun k c' x' y' hc hx hy =>
          h (k + 1) c' x' y' (by simpa using hc) (by simpa using hx) (by simpa using hy)
        exact congrArg₂ List.cons (h 0 c x y rfl rfl rfl) hrest

theorem stageRecord_of_stageRecords {cs : List StageConfig} {a b : List Stage} (h : stageRecords cs a = stageRecords cs b) {k : Nat}
    {c : StageConfig} {x y : Stage} (hc : cs[k]? = some c) (hx : a[k]? = some x) (hy : b[k]? = some y) :
    stageRecord x = stageRecord y := by
  have hk := congrArg (·[k]?) h
  simpa [stageRecords, List.getElem?_zipWith, hc, hx, hy] using hk

/-- The demand records, those of the stages' places last (Table 38). -/
theorem demandRecords_split (s : State) :
    demandRecords s = (earlierLoads s).map Load.demand ++ stageRecords s.cfg.heat.stages s.heat.stages := by
  rw [demandRecords, loadList_split, List.map_append, stages_records]

/-- The earlier places' records are in the demand view. -/
theorem earlier_records {s t : State} (h : demandView t = demandView s) :
    (earlierLoads t).map Load.demand = (earlierLoads s).map Load.demand := by
  have hasked := congrArg (List.map fun a : Fitting × Nat × Option Demand => a.2.2) (earlier_asked h)
  simpa [List.map_map, Function.comp_def, Load.asked] using hasked

/-- Equal demand records are equal place by place, where the stages are as many. -/
theorem records_split {s t : State} (hstart : t.start = s.start) (hcount : t.heat.stages.length = s.heat.stages.length)
    (h : demandRecords t = demandRecords s) :
    (earlierLoads t).map Load.demand = (earlierLoads s).map Load.demand ∧
      stageRecords s.cfg.heat.stages t.heat.stages = stageRecords s.cfg.heat.stages s.heat.stages := by
  rw [demandRecords_split, demandRecords_split, State.cfg, hstart] at h
  exact List.append_inj' h (by simp [stageRecords, hcount])

/-! ## The rounds -/

section Rounds

variable {p : State} {work : Work}

/-- Rounds that withdraw no record are one round (R167). -/
theorem settleLoads_single (n : Nat) (hf : StagesFormed p)
    (h : stageRecords p.cfg.heat.stages (settleLoads (n + 1) work p).heat.stages =
      stageRecords p.cfg.heat.stages p.heat.stages) : settleLoads (n + 1) work p = driveOwners (allocate work p) := by
  have hround := round_recordsStep work hf
  have hview : demandView (driveOwners (allocate work p)) = demandView p := (driveOwners_view _).trans (allocate_view work p)
  have hcfg : (driveOwners (allocate work p)).cfg = p.cfg := congrArg (fun v => v.start.config) hview
  have hfurther := settleLoads_recordsStep n .recompute (p := driveOwners (allocate work p)) (settleStages_stagesFormed _)
  unfold settleLoads at h ⊢
  dsimp only at h ⊢
  split
  · rfl
  · rename_i hne
    rw [if_neg hne] at h
    refine absurd ?_ hne
    obtain ⟨hasked, -⟩ := allocated work p
    rw [demandRecords_of_asked hasked, demandRecords_split, demandRecords_split, earlier_records hview, hcfg]
    refine congrArg _ (stageRecords_ext hround.length_eq.symm fun k c x y hc hx hy => ?_)
    obtain ⟨x', hx', hyx⟩ := getElem?_of_forall₂ hround hy
    obtain rfl : x = x' := Option.some.inj (hx.symm.trans hx')
    obtain ⟨z, hz, hxz⟩ := getElem?_of_forall₂ hfurther hx
    have hlast : stageRecord z = stageRecord y := stageRecord_of_stageRecords h hc hz hy
    rcases hyx with ⟨hsame, -⟩ | ⟨-, hdone, hsome, hnone⟩
    · exact hsame
    · rcases hxz with ⟨hkept, -⟩ | ⟨hhold, -⟩
      · exact absurd (hlast.symm.trans (hkept.trans hnone)) hsome
      · simp [hdone] at hhold

end Rounds

/-! ## The end of an event -/

/-- Where the end of an event leaves the records that the tables gave before it, the units have published no other ones. A record that
the rounds withdraw is that of a stage that was ON, and so had its record before the event. -/
theorem publish_demandRecords {before u : State} {n : Nat} {work : Work} (hd : DemandsOk before) (hstart : u.start = before.start)
    (hidle : IdleKept before.heat.stages u.heat.stages)
    (h : demandRecords (settleLoads n work (publish before u)) = demandRecords before) :
    demandRecords (publish before u) = demandRecords before := by
  have hform : StagesFormed (publish before u) := settleStages_stagesFormed _
  have hrounds := settleLoads_recordsStep n work hform
  have hidle' := hidle.trans (publish_idleKept before u)
  have hpstart : (publish before u).start = before.start := (publish_frame before u).start.trans hstart
  have hview := settleLoads_view n work (publish before u)
  generalize publish before u = p at hform hrounds hidle' hpstart hview h ⊢
  have hcfg : p.cfg = before.cfg := congrArg Start.config hpstart
  generalize settleLoads n work p = f at hrounds hview h
  obtain ⟨hearlier, hstages⟩ := records_split ((congrArg DemandView.start hview).trans hpstart)
    (hrounds.length_eq.symm.trans hidle'.length_eq.symm) h
  rw [demandRecords_split, demandRecords_split, ← hearlier, ← earlier_records hview, hcfg]
  refine congrArg _ (stageRecords_ext hidle'.length_eq.symm fun k c x y hc hx hy => ?_)
  obtain ⟨z, hz, hxz⟩ := getElem?_of_forall₂ hrounds hx
  have hlast : stageRecord z = stageRecord y := stageRecord_of_stageRecords hstages hc hz hy
  rcases hxz with ⟨hsame, -⟩ | ⟨hhold, -, -, hnone⟩
  · exact hsame.symm.trans hlast
  · have hwas : Idle y := (hd.stages k c y hc hy).idle (hlast.symm.trans hnone)
    obtain ⟨x', hx', hkept⟩ := getElem?_of_forall₂ hidle' hy
    obtain rfl : x = x' := Option.some.inj (hx.symm.trans hx')
    obtain ⟨hon, -⟩ := (hform k c x (hcfg ▸ hc) hx).of_holding hhold
    obtain ⟨hoff, -⟩ := hkept hwas
    simp [hoff] at hon

/-- An event that asks for no recomputation and leaves the link state and the demand records leaves requests, grants, settle delay
and CAP_EXCEEDED as it had them for its end (R157). -/
theorem finish_leaves {before u : State} {work : Work} (hd : DemandsOk before) (hstart : u.start = before.start)
    (hlink : u.view.link = before.view.link) (hidle : IdleKept before.heat.stages u.heat.stages) (hwork : work ≠ .recompute)
    (h : demandRecords (finish before work u) = demandRecords before) :
    (finish before work u).alloc = { u.alloc with
      energised := (finish before work u).alloc.energised, reported := (finish before work u).alloc.reported } := by
  have hlast : demandRecords (finish before work u) = demandRecords (settleLoads ((publish before u).heat.stages.length + 2)
      (workFor before work (publish before u)) (publish before u)) := congrArg (List.map Load.demand) (measured_asked before _)
  have hp : demandRecords (publish before u) = demandRecords before := publish_demandRecords hd hstart hidle (hlast.symm.trans h)
  have hframe := publish_frame before u
  have hasks : workFor before work (publish before u) = work := if_neg (by simp [hframe.view, hlink, hp])
  rw [hasks] at hlast
  have hform : StagesFormed (publish before u) := settleStages_stagesFormed _
  have hlength := (settleLoads_recordsStep ((publish before u).heat.stages.length + 2) work hform).length_eq
  have hstart' := (settleLoads_frame ((publish before u).heat.stages.length + 2) work (publish before u)).start
  obtain ⟨-, hstages⟩ := records_split hstart' hlength.symm (hlast.symm.trans (h.trans hp.symm))
  obtain ⟨-, -, -, halloc⟩ := allocated work (publish before u)
  rw [if_neg hwork, hframe.alloc] at halloc
  unfold finish
  dsimp only
  rw [hasks, settleLoads_single _ hform hstages, (measured_rest before _).2.2.2.2, driveOwners_alloc, halloc]

/-- The fields that a recomputation and the settle delay write then stand. -/
theorem finish_leaves_grants {before u : State} {work : Work} (hd : DemandsOk before) (hstart : u.start = before.start)
    (hlink : u.view.link = before.view.link) (hidle : IdleKept before.heat.stages u.heat.stages) (hwork : work ≠ .recompute)
    (h : demandRecords (finish before work u) = demandRecords before) :
    (finish before work u).alloc.applied = u.alloc.applied ∧ (finish before work u).alloc.computed = u.alloc.computed ∧
      (finish before work u).alloc.pendingDue = u.alloc.pendingDue ∧
      (finish before work u).alloc.requests = u.alloc.requests ∧
      (finish before work u).alloc.capExceeded = u.alloc.capExceeded := by
  have halloc := finish_leaves hd hstart hlink hidle hwork h
  generalize finish before work u = t at halloc ⊢
  rw [halloc]
  exact ⟨rfl, rfl, rfl, rfl, rfl⟩

end Sys2Proof.Machine
end

section
/-! SUPPORT. Proofs of O52: the end of the settle delay (R157, R161, R164 to R166). -/

namespace Sys2Proof.Machine

/-- A settle delay that has passed applies the computed grants and ends its event with a realisation (R161). -/
theorem exec_pendingIncreaseExpiry {s : State} {due : Nat} (hrun : s.start.running = true) (hpending : s.alloc.pendingDue = some due)
    (hdue : due ≤ s.clock) : exec .pendingIncreaseExpiry s = .next (finish s .realise (applyComputed s)) := by
  have hpassed : pendingDue s = true := (pendingDue_iff s).mpr ⟨hrun, due, hpending, hdue⟩
  exact congrArg Host.Outcome.next (if_pos hpassed)

/-- An event that asks the allocator for something does so at its end (R157, R164). -/
theorem workFor_ne_none {before t : State} {work : Work} (h : work ≠ .none) : workFor before work t ≠ .none := by
  unfold workFor
  split
  · exact nofun
  · exact h

/-- Settles O52: a record that changes brings a recomputation (`finish_grants`), and where none does the grants are the computed ones,
now applied (`finish_leaves_grants`); either way the loads end fitted (`finish_fitted`). -/
theorem pendingIncrease : Obligations.PendingIncrease := by
  intro s due hrun hpending hdue u
  have hexec : exec .pendingIncreaseExpiry s = .next (finish s .realise u) := exec_pendingIncreaseExpiry hrun hpending hdue
  refine ⟨_, hexec, finish_frame s .realise u, fun hrecords => finish_grants s .realise u (.inr hrecords), fun hd hrecords => ?_,
    fun hshape => ?_⟩
  · exact finish_leaves_grants (u := u) hd rfl rfl (.refl _) (by decide) hrecords
  · have hfitted : FittedOk (finish s .realise u) := finish_fitted s .realise u (hshape.of_counts rfl rfl rfl rfl rfl rfl rfl) hrun
      fun hnone => absurd hnone (workFor_ne_none (by decide))
    exact ⟨hfitted, (hfitted (by rw [finish_start]; exact hrun)).budget_le⟩

end Sys2Proof.Machine
end

section
/-! SUPPORT. Proofs of O53: the meter's pulses and checks, the unaccounted term, E and the net flow (R54, R124, R156, R169 to R171). -/

namespace Sys2Proof.Machine

/-! ## Pulses -/

theorem pulseAccepted_iff (s : State) : pulseAccepted s = true ↔
    s.start.running = true ∧ ∀ n, s.alloc.newest = some n → n + 20 ≤ s.clock := by
  rw [pulseAccepted]
  cases s.alloc.newest <;> simp

/-- At a pulse the time since the newest one is 0, so M is formed from the last interval (R170). -/
theorem measuredPower_at_pulse (c : MeterConfig) (now : Nat) (previous : Option Nat) :
    measuredPower c now (some now) previous = match previous with
      | some n => min 65535 (c.weight * 36000 / (now - n))
      | none => 0 := by
  cases previous <;> simp [measuredPower, held16]

/-! ## The runs of a check -/

section Runs

variable {margin : Nat} {a : Alloc}

/-- While the term is clear a check without excess ends the run (R171). -/
theorem meterRuns_of_level (hclear : a.unaccounted = false) (h : ¬a.energised + margin < a.measured) :
    meterRuns margin a = { a with excessRun := 0 } := by simp [meterRuns, hclear, h]

theorem meterRuns_of_excess (hclear : a.unaccounted = false) (h : a.energised + margin < a.measured)
    (hrun : a.excessRun + 1 < 10) : meterRuns margin a = { a with excessRun := a.excessRun + 1 } := by
  simp [meterRuns, hclear, h, Nat.not_le.mpr hrun]

/-- The tenth check in a row with excess sets the term (R171). -/
theorem meterRuns_of_tenth_excess (hclear : a.unaccounted = false) (h : a.energised + margin < a.measured)
    (hrun : 10 ≤ a.excessRun + 1) :
    meterRuns margin a = { a with excessRun := 0, unaccounted := true, term := a.measured - a.energised } := by
  simp [meterRuns, hclear, h, hrun]

/-- While the term is set it follows M and E (R171). -/
theorem meterRuns_of_lasting_excess (hset : a.unaccounted = true) (h : a.energised + margin < a.measured) :
    meterRuns margin a = { a with clearRun := 0, term := a.measured - a.energised } := by simp [meterRuns, hset, h]

theorem meterRuns_of_clear (hset : a.unaccounted = true) (h : ¬a.energised + margin < a.measured) (hrun : a.clearRun + 1 < 10) :
    meterRuns margin a = { a with clearRun := a.clearRun + 1, term := a.measured - a.energised } := by
  simp [meterRuns, hset, h, Nat.not_le.mpr hrun]

/-- The tenth check in a row without excess clears the term (R171). -/
theorem meterRuns_of_tenth_clear (hset : a.unaccounted = true) (h : ¬a.energised + margin < a.measured)
    (hrun : 10 ≤ a.clearRun + 1) : meterRuns margin a = { a with clearRun := 0, unaccounted := false, term := 0 } := by
  simp [meterRuns, hset, h, hrun]

end Runs

/-- The condition of the unaccounted term is active exactly while the term is set (R149, R171). -/
theorem EventFrame.unaccounted {before s t : State} (h : EventFrame before s t) :
    conditionSet t.alarms.active 8 = s.alloc.unaccounted := by
  rw [h.condition (by decide)]
  exact (congrArg Alloc.unaccounted h.meter :)

/-- The check ends its event with the runs and the term that it gives. -/
theorem exec_meterCheck {s : State} (hrun : s.start.running = true) (hdue : s.alloc.nextCheck ≤ s.clock) :
    ∃ t, exec .meterCheck s = .next t ∧ EventFrame s (checkMeter s) t :=
  event_of_due ((checkDue_iff s).mpr ⟨hrun, hdue⟩) s (termWork s (checkMeter s)) (checkMeter s) s

/-- Settles O53: a pulse forms the draws alone (`draws_of_due`), and a check ends its event with the runs of `meterRuns`, one lemma per
outcome. -/
theorem meterPulseAndCheck : Obligations.MeterPulseAndCheck := by
  refine ⟨fun loads => rfl, fun flow f => ⟨fun h => ?_, fun h => ?_, fun h => ?_⟩, fun s n _ hn hsoon => ?_, fun s hrun hn => ?_,
    fun s hrun hdue => ?_⟩
  · rw [fanFlow, h]
  · rw [fanFlow, h]
  · unfold fanFlow
    split <;> simp [h]
  · have hrefused : pulseAccepted s ≠ true := fun h => by
      obtain ⟨-, hlate⟩ := (pulseAccepted_iff s).mp h
      have := hlate n hn
      omega
    exact congrArg Host.Outcome.next (if_neg hrefused)
  · refine draws_of_due ((pulseAccepted_iff s).mpr ⟨hrun, hn⟩) ?_ s
    rw [takePulse]
    dsimp only
    rw [measuredPower_at_pulse]
    rfl
  · intro k m a excess
    obtain ⟨t, hexec, hend⟩ := exec_meterCheck hrun hdue
    have hactive := hend.unaccounted
    have hchecked : checkMeter s = s.setAlloc (meterRuns k.margin a) := rfl
    rw [hchecked] at hend hactive
    refine ⟨t, hexec, fun hc hx => ?_, fun hc hx hr => ?_, fun hc hx hr => ?_, fun hc hx => ?_, fun hc hx hr => ?_,
      fun hc hx hr => ?_⟩
    · rwa [meterRuns_of_level hc hx] at hend
    · rwa [meterRuns_of_excess hc hx hr] at hend
    · rw [meterRuns_of_tenth_excess hc hx hr] at hend hactive
      exact ⟨hactive, hend⟩
    · rwa [meterRuns_of_lasting_excess hc hx] at hend
    · rwa [meterRuns_of_clear hc hx hr] at hend
    · rw [meterRuns_of_tenth_clear hc hx hr] at hend hactive
      exact ⟨hactive, hend⟩

end Sys2Proof.Machine
end

section
/-! SUPPORT. The shed computation: the requests in ascending order, the water-fill walk over them, and what a tier's fill grants (R159,
R160). -/

namespace Sys2Proof.Machine

/-! ## The ascending order -/

theorem insertAscending_perm (q : Nat) (l : List Nat) : (insertAscending q l).Perm (q :: l) := by
  induction l with
  | nil => exact .refl _
  | cons x xs ih =>
    unfold insertAscending
    split
    · exact .refl _
    · exact (ih.cons x).trans (.swap q x xs)

theorem sortAscending_perm (l : List Nat) : (sortAscending l).Perm l := by
  induction l with
  | nil => exact .nil
  | cons q qs ih => exact (insertAscending_perm q _).trans (ih.cons q)

theorem insertAscending_sorted (q : Nat) {l : List Nat} (h : l.Pairwise (· ≤ ·)) : (insertAscending q l).Pairwise (· ≤ ·) := by
  induction l with
  | nil => exact List.pairwise_singleton _ _
  | cons x xs ih =>
    obtain ⟨hx, hxs⟩ := List.pairwise_cons.mp h
    unfold insertAscending
    split
    · rename_i hq
      exact .cons (List.forall_mem_cons.mpr ⟨hq, fun y hy => hq.trans (hx y hy)⟩) h
    · rename_i hq
      refine .cons (fun y hy => ?_) (ih hxs)
      rcases List.mem_cons.mp ((insertAscending_perm q xs).mem_iff.mp hy) with rfl | hy
      · omega
      · exact hx y hy

theorem sortAscending_sorted (l : List Nat) : (sortAscending l).Pairwise (· ≤ ·) := by
  induction l with
  | nil => exact .nil
  | cons q qs ih => exact insertAscending_sorted q ih

/-- There is one ascending order of the requests. -/
theorem eq_sortAscending {l requests : List Nat} (hperm : l.Perm requests) (hsorted : l.Pairwise (· ≤ ·)) :
    l = sortAscending requests :=
  (hperm.trans (sortAscending_perm requests).symm).eq_of_pairwise (fun _ _ _ _ => Nat.le_antisymm) hsorted
    (sortAscending_sorted requests)

/-! ## The walk -/

/-- The walk with budget `r` grants `pre` in full, and stops at `x`: to each request of `pre` the rest of the budget could give as much to
all that are left, to `x` it could not (R160). -/
structure WaterLevel (r : Nat) (pre : List Nat) (x : Nat) (post : List Nat) : Prop where
  full : ∀ (a : List Nat) (q : Nat) (b : List Nat), pre = a ++ q :: b → a.sum + q * (b.length + 1 + (post.length + 1)) ≤ r
  short : r < pre.sum + x * (post.length + 1)

/-- The share of each request from the level on. -/
def levelShare (r : Nat) (pre post : List Nat) : Nat := (r - pre.sum) / (post.length + 1)

namespace WaterLevel

variable {r q x : Nat} {pre post : List Nat}

theorem head_le (h : WaterLevel r (q :: pre) x post) : q * (pre.length + 1 + (post.length + 1)) ≤ r := by
  simpa using h.full [] q pre rfl

theorem request_le (h : WaterLevel r (q :: pre) x post) : q ≤ r := (Nat.le_mul_of_pos_right q (by omega)).trans h.head_le

theorem tail (h : WaterLevel r (q :: pre) x post) : WaterLevel (r - q) pre x post where
  full := fun a p b hab => by
    have hp := h.full (q :: a) p b (by rw [hab]; rfl)
    rw [List.sum_cons] at hp
    omega
  short := by
    have hq := h.request_le
    have hshort := h.short
    rw [List.sum_cons] at hshort
    omega

theorem sum_le (h : WaterLevel r pre x post) : pre.sum ≤ r := by
  induction pre generalizing r with
  | nil => exact Nat.zero_le r
  | cons q pre ih =>
    have hq := h.request_le
    have hpre := ih h.tail
    rw [List.sum_cons]
    omega

/-- The walk's result: the requests before the level with themselves, the others with the share. -/
theorem waterFill (h : WaterLevel r pre x post) : waterFill r (pre ++ x :: post) =
    pre.map (fun q => (q, q)) ++ (x :: post).map fun q => (q, levelShare r pre post) := by
  induction pre generalizing r with
  | nil =>
    have hx : ¬x * (post.length + 1) ≤ r := by simpa using h.short
    exact if_neg hx
  | cons q pre ih =>
    have hq : q * ((pre ++ x :: post).length + 1) ≤ r := by
      have hlength : (pre ++ x :: post).length + 1 = pre.length + 1 + (post.length + 1) := by
        rw [List.length_append, List.length_cons]
        omega
      rw [hlength]
      exact h.head_le
    have hshare : levelShare (r - q) pre post = levelShare r (q :: pre) post := by
      rw [levelShare, levelShare, List.sum_cons, Nat.sub_sub]
    rw [List.cons_append, Machine.waterFill, if_pos hq, ih h.tail, hshare]
    rfl

/-- The share is below the request at which the walk stops. -/
theorem share_lt (h : WaterLevel r pre x post) : levelShare r pre post < x := by
  have hsum := h.sum_le
  have hshort := h.short
  refine Nat.div_lt_of_lt_mul ?_
  rw [Nat.mul_comm]
  omega

/-- In ascending order every request before the level is below it. -/
theorem lt_of_mem (h : WaterLevel r pre x post) (hsorted : (pre ++ x :: post).Pairwise (· ≤ ·)) {q : Nat} (hq : q ∈ pre) : q < x := by
  obtain ⟨a, b, rfl⟩ := List.append_of_mem hq
  obtain ⟨-, -, hbelow⟩ := List.pairwise_append.mp hsorted
  have hle : ∀ y ∈ b, y ≤ x := fun y hy => hbelow y (by simp [hy]) x (List.mem_cons_self ..)
  have hb : b.sum ≤ b.length * x := by simpa using List.sum_le_card_nsmul b x hle
  have hfull := h.full a q b rfl
  have hshort := h.short
  rw [List.sum_append, List.sum_cons] at hshort
  by_contra hge
  have hx : x * (b.length + (post.length + 1)) ≤ q * (b.length + (post.length + 1)) :=
    Nat.mul_le_mul_right _ (Nat.le_of_not_lt hge)
  simp only [Nat.mul_add, Nat.mul_one] at hfull hshort hx
  rw [Nat.mul_comm] at hb
  omega

end WaterLevel

/-- Where the requests exceed the budget the walk stops at one of them. -/
theorem exists_waterLevel {r : Nat} {qs : List Nat} (h : r < qs.sum) :
    ∃ pre x post, qs = pre ++ x :: post ∧ WaterLevel r pre x post := by
  induction qs generalizing r with
  | nil => simp at h
  | cons q qs ih =>
    rw [List.sum_cons] at h
    by_cases hq : q * (qs.length + 1) ≤ r
    · have hle : q ≤ r := (Nat.le_mul_of_pos_right q (by omega)).trans hq
      obtain ⟨pre, x, post, rfl, hlevel⟩ := ih (r := r - q) (by omega)
      refine ⟨q :: pre, x, post, rfl, fun a p b hab => ?_, ?_⟩
      · cases a with
        | nil =>
          obtain ⟨rfl, rfl⟩ := List.cons.inj hab
          have hlength : (pre ++ x :: post).length + 1 = pre.length + 1 + (post.length + 1) := by
            rw [List.length_append, List.length_cons]
            omega
          rw [hlength] at hq
          simpa using hq
        | cons y a =>
          obtain ⟨rfl, htail⟩ := List.cons.inj hab
          have hp := hlevel.full a p b htail
          rw [List.sum_cons]
          omega
      · have hshort := hlevel.short
        rw [List.sum_cons]
        omega
    · exact ⟨[], q, qs, rfl, fun a p b hab => by simp at hab, by simpa using hq⟩

/-! ## The grants of a fill -/

theorem grantOf_cons (p : Nat × Nat) (fill : List (Nat × Nat)) (q : Nat) :
    grantOf (p :: fill) q = if p.1 = q then p.2 else grantOf fill q := by
  by_cases h : p.1 = q <;> simp [grantOf, h]

/-- A fill that gives every request by one rule, followed by another one. -/
theorem grantOf_append (f : Nat → Nat) (l : List Nat) (fill : List (Nat × Nat)) (q : Nat) :
    grantOf (l.map (fun x => (x, f x)) ++ fill) q = if q ∈ l then f q else grantOf fill q := by
  induction l with
  | nil => simp
  | cons x l ih =>
    rw [List.map_cons, List.cons_append, grantOf_cons, ih]
    by_cases hx : x = q
    · simp [hx]
    · simp [hx, Ne.symm hx]

theorem grantOf_map (f : Nat → Nat) (l : List Nat) (q : Nat) :
    grantOf (l.map fun x => (x, f x)) q = if q ∈ l then f q else 0 := by
  have h := grantOf_append f l [] q
  rwa [List.append_nil] at h

section Tier

variable {r q : Nat} {requests : List Nat}

theorem fillTier_of_fits (h : requests.sum ≤ r) : fillTier r requests = (requests.map fun q => (q, q), r - requests.sum) := if_pos h

theorem fillTier_of_exceeds (h : r < requests.sum) : fillTier r requests = (waterFill r (sortAscending requests), 0) :=
  if_neg (Nat.not_le.mpr h)

/-- What is left for the next tier (R160). -/
theorem fillTier_rest (r : Nat) (requests : List Nat) :
    (fillTier r requests).2 = if requests.sum ≤ r then r - requests.sum else 0 := by
  unfold fillTier
  split <;> rfl

/-- Requests that fit are granted in full. -/
theorem grantOf_of_fits (h : requests.sum ≤ r) : grantOf (fillTier r requests).1 q = if q ∈ requests then q else 0 := by
  rw [fillTier_of_fits h]
  exact grantOf_map (fun q => q) requests q

/-- Requests that do not fit are granted by the level at which the walk over their ascending order stops. -/
theorem grantOf_of_level {x : Nat} {pre post : List Nat} (hperm : (pre ++ x :: post).Perm requests)
    (hsorted : (pre ++ x :: post).Pairwise (· ≤ ·)) (hlevel : WaterLevel r pre x post) (h : r < requests.sum) :
    grantOf (fillTier r requests).1 q =
      if q ∈ pre then q else if q ∈ x :: post then levelShare r pre post else 0 := by
  rw [fillTier_of_exceeds h, ← eq_sortAscending hperm hsorted, hlevel.waterFill, grantOf_append (fun q => q),
    grantOf_map fun _ => levelShare r pre post]

/-- Requests that exceed the budget have such a level. -/
theorem exists_level (h : r < requests.sum) : ∃ pre x post, (pre ++ x :: post).Perm requests ∧
    (pre ++ x :: post).Pairwise (· ≤ ·) ∧ WaterLevel r pre x post := by
  have hperm := sortAscending_perm requests
  obtain ⟨pre, x, post, heq, hlevel⟩ := exists_waterLevel (hperm.sum_eq.symm ▸ h)
  exact ⟨pre, x, post, heq ▸ hperm, heq ▸ sortAscending_sorted requests, hlevel⟩

/-- A request from the level on is none of those before it. -/
theorem WaterLevel.not_mem_pre {x : Nat} {pre post : List Nat} (h : WaterLevel r pre x post)
    (hsorted : (pre ++ x :: post).Pairwise (· ≤ ·)) (hq : q ∈ x :: post) : q ∉ pre ∧ x ≤ q := by
  obtain ⟨-, hpost, -⟩ := List.pairwise_append.mp hsorted
  have hle : x ≤ q := by
    rcases List.mem_cons.mp hq with rfl | hq
    · exact Nat.le_refl _
    · exact List.rel_of_pairwise_cons hpost hq
  exact ⟨fun hpre => absurd (h.lt_of_mem hsorted hpre) (Nat.not_lt.mpr hle), hle⟩

/-- A request that is not the tier's is granted nothing. -/
theorem grantOf_fillTier_of_not_mem (r : Nat) (hq : q ∉ requests) : grantOf (fillTier r requests).1 q = 0 := by
  rcases Nat.lt_or_ge r requests.sum with h | h
  · obtain ⟨pre, x, post, hperm, hsorted, hlevel⟩ := exists_level h
    obtain ⟨hpre, hpost⟩ := not_or.mp (mt List.mem_append.mpr (mt hperm.mem_iff.mp hq))
    rw [grantOf_of_level hperm hsorted hlevel h, if_neg hpre, if_neg hpost]
  · rw [grantOf_of_fits h, if_neg hq]

/-- No request of a tier is granted more than it is. -/
theorem grantOf_fillTier_le (r : Nat) (requests : List Nat) (q : Nat) : grantOf (fillTier r requests).1 q ≤ q := by
  by_cases hq : q ∈ requests
  · rcases Nat.lt_or_ge r requests.sum with h | h
    · obtain ⟨pre, x, post, hperm, hsorted, hlevel⟩ := exists_level h
      rw [grantOf_of_level hperm hsorted hlevel h]
      split_ifs with hpre hpost
      · exact Nat.le_refl q
      · obtain ⟨-, hle⟩ := hlevel.not_mem_pre hsorted hpost
        exact hlevel.share_lt.le.trans hle
      · exact Nat.zero_le q
    · rw [grantOf_of_fits h, if_pos hq]
  · rw [grantOf_fillTier_of_not_mem r hq]
    exact Nat.zero_le q

/-- A tier's grants and what is left for the next one stay within the tier's budget. -/
theorem fillTier_within (r : Nat) (requests : List Nat) :
    (requests.map (grantOf (fillTier r requests).1)).sum + (fillTier r requests).2 ≤ r := by
  rw [fillTier_rest]
  rcases Nat.lt_or_ge r requests.sum with h | h
  · obtain ⟨pre, x, post, hperm, hsorted, hlevel⟩ := exists_level h
    have hpre : pre.map (grantOf (fillTier r requests).1) = pre := by
      refine (List.map_congr_left fun q hq => ?_).trans (List.map_id _)
      rw [grantOf_of_level hperm hsorted hlevel h, if_pos hq]
      rfl
    have hpost : (x :: post).map (grantOf (fillTier r requests).1) =
        List.replicate (post.length + 1) (levelShare r pre post) := by
      refine List.eq_replicate_iff.mpr ⟨by simp, fun g hg => ?_⟩
      obtain ⟨q, hq, rfl⟩ := List.mem_map.mp hg
      rw [grantOf_of_level hperm hsorted hlevel h, if_neg (hlevel.not_mem_pre hsorted hq).1, if_pos hq]
    have hshare : (post.length + 1) * levelShare r pre post ≤ r - pre.sum := Nat.mul_div_le _ _
    have hsum := hlevel.sum_le
    rw [if_neg (Nat.not_le.mpr h), ← (hperm.map _).sum_eq, List.map_append, List.sum_append, hpre, hpost, List.sum_replicate,
      smul_eq_mul]
    omega
  · have hall : requests.map (grantOf (fillTier r requests).1) = requests := by
      refine (List.map_congr_left fun q hq => ?_).trans (List.map_id _)
      rw [grantOf_of_fits h, if_pos hq]
      rfl
    rw [if_pos h, hall]
    omega

end Tier

/-! ## The three tiers -/

/-- A station without a request in a tier adds nothing to its grants (R160). -/
theorem sum_grants_tierRequests (r : Nat) (t : Tier) (l : List Standing) :
    (l.map fun x => grantOf (fillTier r (tierRequests t l)).1 (Standing.request t x)).sum =
      ((tierRequests t l).map (grantOf (fillTier r (tierRequests t l)).1)).sum := by
  have hzero : grantOf (fillTier r (tierRequests t l)).1 0 = 0 := Nat.le_zero.mp (grantOf_fillTier_le _ _ 0)
  generalize grantOf (fillTier r (tierRequests t l)).1 = g at hzero
  unfold tierRequests
  induction l with
  | nil => rfl
  | cons x l ih =>
    rw [List.map_cons, List.map_cons, List.sum_cons, ih]
    by_cases hx : 0 < Standing.request t x
    · simp [hx]
    · have hnone : Standing.request t x = 0 := Nat.eq_zero_of_not_pos hx
      simp [hnone, hzero]

/-- The walk's result in a tier with budget `r`, for the requests in an ascending order that meets the level. -/
theorem fillTier_level (r : Nat) (requests : List Nat) :
    (requests.sum ≤ r → ∀ q ∈ requests, grantOf (fillTier r requests).1 q = q) ∧
    ∀ (pre post : List Nat) (x : Nat), (pre ++ x :: post).Perm requests → (pre ++ x :: post).Pairwise (· ≤ ·) →
      r < requests.sum → WaterLevel r pre x post →
      (∀ q ∈ pre, grantOf (fillTier r requests).1 q = q) ∧
        ∀ q ∈ x :: post, grantOf (fillTier r requests).1 q = levelShare r pre post := by
  refine ⟨fun hfits q hq => ?_, fun pre post x hperm hsorted h hlevel => ⟨fun q hq => ?_, fun q hq => ?_⟩⟩
  · rw [grantOf_of_fits hfits, if_pos hq]
  · rw [grantOf_of_level hperm hsorted hlevel h, if_pos hq]
  · rw [grantOf_of_level hperm hsorted hlevel h, if_neg (hlevel.not_mem_pre hsorted hq).1, if_pos hq]

end Sys2Proof.Machine
end

section
/-! SUPPORT. How each configured station enters the shed computation, and the allowance outside JOINED (R36, R37, R158). -/

namespace Sys2Proof.Machine

theorem standings_length (s : State) : (standings s).length = s.start.config.header.nCfg := by
  simp [standings, State.nCfg, State.cfg]

section Standings

variable {s : State} {n : Nat}

/-- The own station is counted with the own requests (R158). -/
theorem standings_own (hn : n < s.start.config.header.nCfg) (hown : n = s.start.strapped) :
    (standings s)[n]? = some (.counted s.alloc.requests) := by
  have hn' : n < s.nCfg := hn
  rw [standings, List.getElem?_map, List.getElem?_range hn', Option.map_some, if_pos hown]

theorem standings_peer (hn : n < s.start.config.header.nCfg) (hother : n ≠ s.start.strapped) {e : PeerEntry}
    (he : s.view.entries[n]? = some e) : (standings s)[n]? = some (standingOf s.cfg.isolatedShare e) := by
  have hn' : n < s.nCfg := hn
  simp [standings, List.getElem?_range hn', State.own, hother, List.getD_eq_getElem?_getD, he]

end Standings

section Entry

variable {share : Nat} {e : PeerEntry} {b : BeaconFields}

theorem standingOf_absent (h : e.state = .absent) : standingOf share e = .reserved share := by simp [standingOf, h]

theorem standingOf_joined (h : e.state = .fresh ∨ e.state = .stale) (hb : e.beacon = some b) (hlink : b.link = .joined) :
    standingOf share e = .counted b.requests := by
  rcases h with h | h <;> simp [standingOf, h, hb, hlink]

theorem standingOf_apart (h : e.state = .fresh ∨ e.state = .stale) (hb : e.beacon = some b) (hlink : b.link ≠ .joined) :
    standingOf share e = .reserved (max share b.draw) := by
  rcases h with h | h <;> simp [standingOf, h, hb, hlink]

theorem standingOf_lost (h : e.state = .lost) (hb : e.beacon = some b) :
    standingOf share e = .reserved (max share b.draw) := by simp [standingOf, h, hb]

end Entry

/-- In LISTEN and ISOLATED the allowance is the isolated share (R37). -/
theorem allowance_of_loud {s : State} (h : s.view.link = .listen ∨ s.view.link = .isolated) :
    allowance s = s.start.config.header.cap / s.start.config.header.nCfg := by
  rcases h with h | h
  · rw [allowance, h]
    rfl
  · rw [allowance, h]
    rfl

/-- The silent causes, each with whether it is present and with its allowance (R36, R37). -/
def namedAllowances (share : Nat) (k : SilentCauses) : List (Bool × Nat) :=
  [(k.duplicate, share), (k.timebase, share), (k.defaulted, 100), (k.strapRange, 0)]

/-- In SILENT the allowance is that of a present cause, and none is lower. -/
theorem silentAllowance_least (c : Config) {k : SilentCauses} (h : k.isEmpty = false) :
    (∃ x ∈ namedAllowances c.isolatedShare k, x.1 = true ∧ silentAllowance c k = x.2) ∧
      ∀ x ∈ namedAllowances c.isolatedShare k, x.1 = true → silentAllowance c k ≤ x.2 := by
  obtain ⟨duplicate, timebase, defaulted, strapRange⟩ := k
  generalize hshare : c.isolatedShare = share
  unfold silentAllowance namedAllowances
  rw [hshare]
  cases strapRange with
  | true => simp
  | false =>
    cases defaulted with
    | true =>
      rcases Nat.le_total 100 share with hle | hle <;> cases duplicate <;> cases timebase <;> simp [hle]
    | false => cases duplicate <;> cases timebase <;> simp_all [SilentCauses.isEmpty]

/-! ## The tiers of a shed computation -/

section Shed

variable (c : Nat) (l : List Standing)

/-- Each tier of a computation is filled from what the tiers before it have left (R160). -/
theorem shedComputation_tiers :
    let r := shedComputation c l
    let budget := c - (reserveSum l + tierZeroDemand l)
    let left1 := (fillTier budget (tierRequests 1 l)).2
    let left2 := (fillTier left1 (tierRequests 2 l)).2
    r.fill1 = (fillTier budget (tierRequests 1 l)).1 ∧ r.fill2 = (fillTier left1 (tierRequests 2 l)).1 ∧
      r.fill3 = (fillTier left2 (tierRequests 3 l)).1 := ⟨rfl, rfl, rfl⟩

/-- The grants of all stations in the three tiers stay within the cap less the reserves and D0 (R159, R160). -/
theorem shedComputation_within :
    let r := shedComputation c l
    let granted (t : Tier) (fill : List (Nat × Nat)) : Nat := (l.map fun x => grantOf fill (Standing.request t x)).sum
    granted 1 r.fill1 + granted 2 r.fill2 + granted 3 r.fill3 ≤ c - (reserveSum l + tierZeroDemand l) := by
  intro r granted
  obtain ⟨h1, h2, h3⟩ := shedComputation_tiers c l
  have hwithin1 := fillTier_within (c - (reserveSum l + tierZeroDemand l)) (tierRequests 1 l)
  have hwithin2 := fillTier_within (fillTier (c - (reserveSum l + tierZeroDemand l)) (tierRequests 1 l)).2 (tierRequests 2 l)
  have hwithin3 := fillTier_within (fillTier (fillTier (c - (reserveSum l + tierZeroDemand l)) (tierRequests 1 l)).2
    (tierRequests 2 l)).2 (tierRequests 3 l)
  rw [← sum_grants_tierRequests] at hwithin1 hwithin2 hwithin3
  simp only [granted, r, h1, h2, h3]
  omega

end Shed

end Sys2Proof.Machine
end

section
/-! SUPPORT. What an event leaves for its end of the grounds on which the allocator recomputes: the allocator, the entry states and the
idle stages. The operations that commands share, one by one (R154, R157). -/

namespace Sys2Proof.Machine

/-- The states of the view table's entries. -/
def entryStates (s : State) : List EntryState := s.view.entries.map PeerEntry.state

/-- `u` follows `s` within an event that gives the allocator no ground to recompute but what its end finds by itself: the allocator and the
entry states stand, and no idle stage goes ON. -/
structure LeavesGrounds (s u : State) : Prop where
  start : u.start = s.start
  alloc : u.alloc = s.alloc
  entries : entryStates u = entryStates s
  idle : IdleKept s.heat.stages u.heat.stages

namespace LeavesGrounds

variable {s t u : State}

theorem refl (s : State) : LeavesGrounds s s := ⟨rfl, rfl, rfl, .refl _⟩

theorem trans (h : LeavesGrounds s t) (k : LeavesGrounds t u) : LeavesGrounds s u where
  start := k.start.trans h.start
  alloc := k.alloc.trans h.alloc
  entries := k.entries.trans h.entries
  idle := h.idle.trans k.idle

/-- An operation that leaves the allocator as it leaves the loads' grants, and touches neither the entries nor the heat unit. -/
theorem of_grants (h : SameGrants s u) (hblocks : (u.view.entries, u.heat) = (s.view.entries, s.heat) := by rfl) :
    LeavesGrounds s u := by
  obtain ⟨hentries, hheat⟩ := Prod.mk.inj hblocks
  exact ⟨h.start, h.alloc, congrArg (List.map PeerEntry.state) hentries, hheat ▸ .refl _⟩

/-- An operation of the shift tracker. -/
theorem of_shift (h : ShiftFrame s u) (hidle : IdleKept s.heat.stages u.heat.stages) : LeavesGrounds s u :=
  ⟨h.start, h.alloc, by rw [entryStates, h.view, entryStates], hidle⟩

end LeavesGrounds

section Operations

variable (s : State)

/-! ## The transmit queue, the peer view and the link state -/

theorem leavesGrounds_setLine (l : Line) : LeavesGrounds s (s.setLine l) := .of_grants (sameGrants_setLine s l)

theorem leavesGrounds_setView {v : View} (h : v.entries = s.view.entries := by rfl) : LeavesGrounds s (s.setView v) :=
  .of_grants (sameGrants_setView s (congrArg _ h)) (congrArg (·, s.heat) h)

theorem leavesGrounds_offer (b : Bulletin) : LeavesGrounds s (offer b s) := .of_grants (sameGrants_offer s b) (by simp)

theorem leavesGrounds_heard (kind : Nat) (sender : Station) (payload : List Byte) :
    LeavesGrounds s (heard kind sender payload s) :=
  .of_grants (sameGrants_heard s kind sender payload) (by rw [heard_entries, (heard_frame _ _ _ _).heat])

theorem leavesGrounds_addCause (cause : SilentCause) : LeavesGrounds s (addCause cause s) := by
  refine .of_grants (sameGrants_addCause s cause) ?_
  unfold addCause
  dsimp only
  split <;> rfl

theorem leavesGrounds_removeCause (cause : SilentCause) : LeavesGrounds s (removeCause cause s) := by
  refine .of_grants (sameGrants_removeCause s cause) ?_
  unfold removeCause
  dsimp only
  split <;> rfl

theorem leavesGrounds_resetLink : LeavesGrounds s (resetLink s) := by
  refine .of_grants (sameGrants_resetLink s) ?_
  unfold resetLink
  split <;> rfl

theorem leavesGrounds_completeLink : LeavesGrounds s (completeLink s) := by
  refine .of_grants (sameGrants_completeLink s) ?_
  unfold completeLink
  split <;> rfl

theorem leavesGrounds_endListen : LeavesGrounds s (endListen s) := by
  refine .of_grants (sameGrants_endListen s) ?_
  unfold endListen
  split <;> rfl

theorem leavesGrounds_scheduleBeacon : LeavesGrounds s (scheduleBeacon s) := by
  refine .of_grants (sameGrants_scheduleBeacon s) ?_
  unfold scheduleBeacon
  dsimp only
  split
  · rfl
  · simp

theorem leavesGrounds_balance : LeavesGrounds s (balance s) := by
  refine .of_grants (sameGrants_balance s) ?_
  unfold balance
  split <;> rfl

/-! ## The traffic unit and the air unit -/

theorem leavesGrounds_setTraffic {t : Traffic} (h : t.zones.length = s.traffic.zones.length := by rfl) :
    LeavesGrounds s (s.setTraffic t) := .of_grants (sameGrants_setTraffic s h)

theorem leavesGrounds_beamChange (beam : Beam) : LeavesGrounds s (beamChange beam s) := by
  have hpassage (u : State) : (endPassage u).view.entries = u.view.entries ∧ (endPassage u).heat = u.heat := by
    unfold endPassage takeCrossing
    dsimp only
    split <;> simp
  refine .of_grants (sameGrants_beamChange s beam) ?_
  unfold beamChange
  dsimp only
  split_ifs
  · rw [(hpassage _).1, (hpassage _).2]
    rfl
  · rfl
  · rfl
  · rfl

theorem leavesGrounds_sampleGas (g : Gas) (value : Option Nat) : LeavesGrounds s (sampleGas g value s) := by
  refine .of_grants (sameGrants_sampleGas s g value) ?_
  cases g <;> rfl

/-! ## The heat unit -/

theorem leavesGrounds_readTemperature (value : Option Int) : LeavesGrounds s (readTemperature value s) where
  start := (sameGrants_readTemperature s value).start
  alloc := (sameGrants_readTemperature s value).alloc
  entries := by
    rw [readTemperature, stageReading_eq]
    rfl
  idle := by
    have hidle := stageReading_idleKept
      (s.setHeat { takeReading s.cfg.heat value s.heat with nextReading := s.heat.nextReading + 1000 })
    have hstages : { takeReading s.cfg.heat value s.heat with nextReading := s.heat.nextReading + 1000 }.stages =
        s.heat.stages := takeReading_stages s.cfg.heat value s.heat
    rwa [State.setHeat_heat, hstages] at hidle

/-! ## The shift tracker -/

theorem changePage_idleKept (p : Fin 4) : IdleKept s.heat.stages (changePage p s).heat.stages := by
  by_cases h : p = s.shift.page
  · rw [changePage, if_pos h]
    exact .refl _
  · rw [changePage_of_ne h]
    exact reformHeat_idleKept (reformChannels (withPage p s))

theorem leavesGrounds_adopt (e : Byte) (p : Fin 4) : LeavesGrounds s (adopt e p s) := by
  refine .of_shift (adopt_frame e p s) ?_
  have hstarted (u : State) : (startChangeover u).heat = u.heat := by rw [startChangeover_eq]
  have hrolled : (rollAccumulators s).heat = s.heat := rfl
  unfold adopt
  dsimp only
  rw [State.setShift_heat, hstarted, ← hrolled]
  exact changePage_idleKept ((rollAccumulators s).setShift { (rollAccumulators s).shift with epoch := some e }) p

theorem leavesGrounds_adoptionTest (e : Byte) (p : Fin 4) : LeavesGrounds s (adoptionTest e p s) := by
  have hlower : LeavesGrounds s (settleLowerPage p s) := by
    refine .of_shift (settleLowerPage_frame p s) ?_
    unfold settleLowerPage
    dsimp only
    split <;> exact changePage_idleKept s p
  unfold adoptionTest
  split
  · exact leavesGrounds_adopt s e p
  · split_ifs
    · exact leavesGrounds_adopt s e p
    · exact hlower
    · exact .refl s

theorem leavesGrounds_press : LeavesGrounds s (press s) := by
  unfold press
  split
  · exact (leavesGrounds_adopt s _ _).trans (leavesGrounds_offer _ _)
  · exact .refl s

/-! ## The override stacks, the doors and the deliveries -/

theorem leavesGrounds_onStackOf (k : StackId) (f : List OverrideEntry → List OverrideEntry) : LeavesGrounds s (onStackOf k f s) :=
  .of_grants (sameGrants_onStackOf s k f)

theorem leavesGrounds_placeEntry (kind : DirectiveKind) (k : StackId) (sender : Station) (p : Vector Byte 9) :
    LeavesGrounds s (placeEntry kind k sender p s) := by
  unfold placeEntry
  split
  · exact leavesGrounds_onStackOf s _ _
  · exact .refl s

theorem leavesGrounds_onDoor (d : Fin 8) {f : Door → Door} (h : ∀ r, (f r).curtainGranted = r.curtainGranted) :
    LeavesGrounds s (onDoor d f s) := .of_grants (sameGrants_onDoor s d h)

theorem leavesGrounds_deliverHandoff (sender : Station) (p : Vector Byte 4) : LeavesGrounds s (deliverHandoff sender p s) := by
  refine .of_grants (sameGrants_deliverHandoff s sender p) ?_
  unfold deliverHandoff handoffLeadIn handoffCount
  (repeat' split) <;> rfl

theorem leavesGrounds_deliverShift (p : Vector Byte 2) : LeavesGrounds s (deliverShift p s) := by
  unfold deliverShift
  split
  · exact leavesGrounds_adoptionTest s _ _
  · exact .refl s

/-- An ALARM's summary joins its sender's entry, whose state stands (R30). -/
theorem leavesGrounds_deliverAlarm (sender : Station) (p : Vector Byte 4) : LeavesGrounds s (deliverAlarm sender p s) := by
  unfold deliverAlarm
  split
  · exact ⟨rfl, rfl, updateAt_map _ _ _ _ fun _ _ => rfl, .refl _⟩
  · exact .refl s

end Operations

end Sys2Proof.Machine
end

section
/-! SUPPORT. What a command can do to the grants, said once for every command: it leaves them, it ends an event that finds its grounds to
recompute in the link state and the records alone, or it has a ground of its own (R157, R161). -/

namespace Sys2Proof.Machine

/-- The allocator's fields that an event hands to its end, with the cause of CAP_EXCEEDED. -/
def Alloc.claims (a : Alloc) : (Requests × Grants × Grants × Option Nat × Nat) × Bool := (a.settlement, a.capExceeded)

/-- The draws are none of them (R156). -/
theorem measure_claims (s : State) : (measure s).alloc.claims = s.alloc.claims := by simp [measure, Alloc.claims, Alloc.settlement]

/-- The command is a BEACON accepted from a configured peer (R157). -/
def PeerBeacon (s : State) (c : Instr) : Prop :=
  ∃ sender p, c = .beaconReceived sender p ∧ s.line.engine = .receive ∧ sender.toNat < 32 ∧
    sender.toNat < s.start.config.header.nCfg ∧ sender.toNat ≠ s.start.strapped

/-- What a command of a running station can do to the grants; `beacon` says that it is a peer's BEACON. -/
inductive GrantStep (s : State) (beacon : Prop) : State → Prop
  /-- It ends no event, and leaves the grants and all they depend on. -/
  | stands {t : State} (h : Stands s t) (hclaims : t.alloc.claims = s.alloc.claims) : GrantStep s beacon t
  /-- It ends an event without a ground of its own to recompute. -/
  | ends {u : State} {a : Alloc} (h : LeavesGrounds s u) (ha : a.claims = s.alloc.claims) :
      GrantStep s beacon (finish s .none (u.setAlloc a))
  /-- It ends an event with one: a peer's BEACON, a changed term or a changed entry. -/
  | recomputes {u : State} (happlied : u.alloc.applied = s.alloc.applied) (hdue : u.alloc.pendingDue = s.alloc.pendingDue)
      (hground : beacon ∨ u.alloc.term ≠ s.alloc.term ∨ entryStates u ≠ entryStates s) :
      GrantStep s beacon (finish s .recompute u)
  /-- A start sequence begins. -/
  | rests {t : State} (hrun : t.start.running = false) : GrantStep s beacon t

/-- A command that takes such a step. -/
def StepsGrants (s : State) (beacon : Prop) (a : Answer) : Prop := ∃ t, a = .next t ∧ GrantStep s beacon t

section Helpers

variable {s u : State} {beacon : Prop}

theorem GrantStep.refl (s : State) : GrantStep s beacon s := .stands (.refl s) rfl

theorem GrantStep.ended (h : LeavesGrounds s u) : GrantStep s beacon (finish s .none u) :=
  .ends (u := u) (a := u.alloc) h (congrArg Alloc.claims h.alloc)

/-- The end of an event that may have changed the link state. -/
theorem grantStep_finishLink (h : LeavesGrounds s u) (hstands : u.view.link = s.view.link → Stands s u) :
    GrantStep s beacon (finishLink s u) := by
  unfold finishLink
  split
  · exact .stands (hstands ‹_›) (congrArg Alloc.claims h.alloc)
  · exact .ended h

namespace StepsGrants

variable {c : Prop} [Decidable c]

theorem guarded (hu : c → GrantStep s beacon u) : StepsGrants s beacon (.next (if c then u else s)) := by
  refine ⟨_, rfl, ?_⟩
  split
  · exact hu ‹_›
  · exact .refl s

theorem stands (hu : c → Stands s u) (hclaims : u.alloc.claims = s.alloc.claims := by rfl) :
    StepsGrants s beacon (.next (if c then u else s)) := guarded fun hc => .stands (hu hc) hclaims

/-- A command that changes an output or the meter and then forms the draws (R124, R156). -/
theorem draws (hu : c → Stands s u) (hclaims : u.alloc.claims = s.alloc.claims) :
    StepsGrants s beacon (.next (if c then measure u else s)) :=
  guarded fun hc => .stands ((hu hc).trans (stands_measure u)) ((measure_claims u).trans hclaims)

theorem event (hu : LeavesGrounds s u) : StepsGrants s beacon (.next (if c then finish s .none u else s)) :=
  guarded fun _ => .ended hu

end StepsGrants

end Helpers

section Frames

variable (s : State) {beacon : Prop} (kind : Nat) (sender : Station) (payload : List Byte)

/-! ## Accepted frames -/

/-- A frame is taken with a delivery and a close that take a step. -/
theorem grantStep_takeFrame {deliver : State → State} {close : State → State → State}
    (hclose : mayAccept s = true → sender.toNat ≠ s.own →
      GrantStep s beacon (close s (deliver (heard kind sender payload s)))) :
    GrantStep s beacon (takeFrame kind sender payload deliver close s) := by
  rcases takeFrame_cases kind sender payload deliver close s with ⟨-, ht⟩ | ⟨-, -, ht⟩ | ⟨hmay, hother, ht⟩
  · rw [ht]
    exact .refl s
  · rw [ht]
    exact .ended ((leavesGrounds_heard s _ _ _).trans (leavesGrounds_addCause _ _))
  · rw [ht]
    exact hclose hmay hother

/-- A frame whose delivery ends its event. -/
theorem grantStep_frameEvent {deliver : State → State} (hdeliver : ∀ u, LeavesGrounds u (deliver u)) :
    GrantStep s beacon (takeFrame kind sender payload deliver (fun b t => finish b .none t) s) :=
  grantStep_takeFrame s kind sender payload fun _ _ => .ended ((leavesGrounds_heard s _ _ _).trans (hdeliver _))

theorem grantStep_passFrame : GrantStep s beacon (passFrame kind sender payload s) :=
  grantStep_takeFrame s kind sender payload fun _ _ => grantStep_finishLink (leavesGrounds_heard s _ _ _) (stands_heard s _ _ _)

theorem grantStep_takeDirective (k : DirectiveKind) (p : Vector Byte 9) {deliver : State → State}
    (hdeliver : ∀ u, LeavesGrounds u (deliver u)) : GrantStep s beacon (takeDirective k sender p deliver s) := by
  unfold takeDirective
  split_ifs
  · exact grantStep_frameEvent s _ _ _ hdeliver
  · exact grantStep_passFrame s _ _ _
  · exact .refl s

theorem grantStep_takeQuery (row : Nat) (p : Vector Byte 3) : GrantStep s beacon (takeQuery row sender p s) := by
  unfold takeQuery
  split_ifs
  · refine grantStep_takeFrame s _ _ _ fun _ _ => grantStep_finishLink ?_ fun hlink => ?_
    · exact (leavesGrounds_heard s _ _ _).trans (leavesGrounds_offer _ _)
    · rw [answerQuery, offer_view] at hlink
      exact (stands_heard s _ _ _ hlink).trans (stands_offer _ _)
  · exact grantStep_passFrame s _ _ _
  · exact .refl s

/-- A peer's beacon ends in a recomputation; that of another station is not delivered (R28, R157). -/
theorem grantStep_beaconFrame (p : Vector Byte 24) : GrantStep s (PeerBeacon s (.beaconReceived sender p))
    (takeFrame kindBeacon sender p.toList (deliverBeacon sender p) (closeBeacon sender) s) := by
  refine grantStep_takeFrame s _ _ _ fun hmay hother => ?_
  obtain ⟨-, hrecv⟩ := Bool.and_eq_true_iff.mp hmay
  unfold closeBeacon
  split
  · rename_i hpeer
    have halloc := ((sameGrants_heard s kindBeacon sender p.toList).trans (sameGrants_deliverBeacon _ sender p)).alloc
    exact .recomputes (congrArg Alloc.applied halloc) (congrArg Alloc.pendingDue halloc)
      (.inl ⟨sender, p, rfl, of_decide_eq_true hrecv, (isPeer_iff sender s).mp hpeer⟩)
  · rename_i hnone
    have hdeliver : deliverBeacon sender p (heard kindBeacon sender p.toList s) = heard kindBeacon sender p.toList s :=
      if_neg (by rwa [isPeer_heard])
    rw [hdeliver]
    exact grantStep_finishLink (leavesGrounds_heard s _ _ _) (stands_heard s _ _ _)

end Frames

section Exec

variable (s : State) {beacon : Prop}

/-! ## Commands with a ground of their own -/

/-- An entry that changes its state is seen in the view table (R29). -/
theorem entryStates_onEntry_ne {s : State} {n : Nat} {f : PeerEntry → PeerEntry} {e : PeerEntry} (he : s.view.entries[n]? = some e)
    (hf : (f e).state ≠ e.state) : entryStates (onEntry n f s) ≠ entryStates s := by
  intro hsame
  have hn := congrArg (·[n]?) hsame
  simp only [entryStates, onEntry, State.setView_view, List.getElem?_map, updateAt_getElem?, he] at hn
  exact hf (by simpa using hn)

theorem stepsGrants_entryStale (n : Fin 32) : StepsGrants s beacon (exec (.entryStale n) s) := by
  refine .guarded fun hdue => .recomputes rfl rfl (.inr (.inr ?_))
  obtain ⟨-, e, b, he, hfresh, -⟩ := (staleDue_iff s n).mp hdue
  exact entryStates_onEntry_ne he (by simp [hfresh])

theorem stepsGrants_entryLost (n : Fin 32) : StepsGrants s beacon (exec (.entryLost n) s) := by
  refine .guarded fun hdue => ?_
  obtain ⟨-, e, b, he, hstale, -⟩ := (lostDue_iff s n).mp hdue
  rw [lowerLost_eq]
  exact .recomputes rfl rfl (.inr (.inr (entryStates_onEntry_ne he (by simp [hstale]))))

/-- A check that changes the term is a recomputation, any other leaves the grants to the event's end (R155, R171). -/
theorem stepsGrants_meterCheck : StepsGrants s beacon (exec .meterCheck s) := by
  refine .guarded fun _ => ?_
  have hruns (margin : Nat) (a : Alloc) : meterRuns margin a =
      { a with
        excessRun := (meterRuns margin a).excessRun, clearRun := (meterRuns margin a).clearRun
        unaccounted := (meterRuns margin a).unaccounted, term := (meterRuns margin a).term } := by
    unfold meterRuns
    dsimp only
    (repeat' split) <;> rfl
  have hchecked := hruns s.cfg.meter.margin { s.alloc with
    measured := measuredPower s.cfg.meter s.clock s.alloc.newest s.alloc.previous, nextCheck := s.alloc.nextCheck + 1000 }
  change (checkMeter s).alloc = _ at hchecked
  have hshape : checkMeter s = s.setAlloc (checkMeter s).alloc := rfl
  by_cases hterm : (checkMeter s).alloc.term = s.alloc.term
  · rw [termWork, if_pos hterm, hshape]
    refine .ends (.refl s) ?_
    have hclaims : (checkMeter s).alloc.claims = { s.alloc with term := (checkMeter s).alloc.term }.claims := by
      rw [hchecked]
      rfl
    rw [hclaims, hterm]
  · rw [termWork, if_neg hterm]
    exact .recomputes (by rw [hchecked]) (by rw [hchecked]) (.inr (.inl hterm))

end Exec

end Sys2Proof.Machine
end

section
/-! SUPPORT. The step that each command takes on the grants (R157). -/

namespace Sys2Proof.Machine

section Exec

variable (s : State) {beacon : Prop}

/-! ## Commands with cases of their own -/

theorem stepsGrants_lineIdle (bits : List Bool) : StepsGrants s beacon (exec (.lineIdle bits) s) := by
  refine .guarded fun _ => ?_
  split
  · exact .stands (stands_setLine s _) rfl
  · exact .refl s

theorem stepsGrants_transmitAttemptStart : StepsGrants s beacon (exec .transmitAttemptStart s) := by
  refine .guarded fun _ => ?_
  split
  · exact .stands (stands_setLine s _) rfl
  · exact .refl s

theorem stepsGrants_lostArbitration (k : Nat) : StepsGrants s beacon (exec (.lostArbitration k) s) := by
  refine .guarded fun _ => ?_
  (repeat' split)
  · exact .stands (stands_setLine s _) rfl
  · exact .refl s
  · exact .refl s

theorem stepsGrants_bitError (k : Nat) : StepsGrants s beacon (exec (.bitError k) s) := by
  refine .guarded fun _ => ?_
  (repeat' split)
  · exact .stands (stands_setLine s _) rfl
  · exact .refl s
  · exact .refl s

theorem stepsGrants_abortEnd : StepsGrants s beacon (exec .abortEnd s) := by
  refine .guarded fun _ => ?_
  unfold endAbort
  split_ifs
  · exact .stands (stands_setLine s _) rfl
  · exact .stands (stands_setLine s _) rfl
  · exact .ended ((leavesGrounds_setLine s _).trans (leavesGrounds_resetLink _))

theorem stepsGrants_transmissionComplete : StepsGrants s beacon (exec .transmissionComplete s) := by
  refine .guarded fun _ => ?_
  split
  · have hgrounds (l : Line) : LeavesGrounds s (completeLink (s.setLine l)) :=
      (leavesGrounds_setLine s l).trans (leavesGrounds_completeLink _)
    unfold completeTransmission
    dsimp only
    split
    · exact .ended (hgrounds _)
    · rename_i hstill
      refine .stands ((stands_setLine s _).trans (stands_completeLink _ ?_)) (congrArg Alloc.claims (hgrounds _).alloc)
      exact not_not.mp fun hmoved => hstill (.inr hmoved)
  · exact .refl s

theorem stepsGrants_timebaseLost : StepsGrants s beacon (exec .timebaseLost s) := by
  refine ⟨_, rfl, ?_⟩
  split_ifs
  · exact .stands (stands_setView s) rfl
  · have hheld : LeavesGrounds s ((s.setLine (holdLine s.line)).setTraffic (spoilPassage s.traffic)) :=
      (leavesGrounds_setLine s _).trans (leavesGrounds_setTraffic _)
    exact .ended (hheld.trans ((leavesGrounds_setView _).trans (leavesGrounds_addCause _ _)))
  · exact .stands ((stands_setView s).trans (stands_setView _)) rfl

theorem stepsGrants_timebaseRecovered : StepsGrants s beacon (exec .timebaseRecovered s) := by
  refine .guarded fun _ => ?_
  split
  · have hreleased : LeavesGrounds s ((s.setLine (releaseLine s.line)).setView { s.view with timebaseLost := false }) :=
      (leavesGrounds_setLine s _).trans (leavesGrounds_setView _)
    exact .ended (hreleased.trans (leavesGrounds_removeCause _ _))
  · exact .stands (stands_setView s) rfl

theorem stepsGrants_shiftInputChange (pressed : Bool) (event : InputEvent) :
    StepsGrants s beacon (exec (.shiftInputChange pressed event) s) := by
  refine .guarded fun _ => ?_
  cases event with
  | raw => exact .stands (stands_setShift s) rfl
  | stable =>
    dsimp only
    split
    · exact .ended (LeavesGrounds.trans (.of_grants (sameGrants_setShift s _)) (leavesGrounds_press _))
    · exact .stands (stands_setShift s) rfl

/-- The MANUAL input's debounced level works on the LIGHT stack (R90). -/
theorem grantStep_takeManual (level : Bool) (f : List OverrideEntry → List OverrideEntry) :
    GrantStep s beacon (finish s .none (onStackOf .light f (onManual (Debounced.take level) s))) := by
  have htaken : LeavesGrounds s (onManual (Debounced.take level) s) := .of_grants (sameGrants_setLighting s rfl rfl)
  exact .ended (htaken.trans (leavesGrounds_onStackOf _ _ _))

theorem stepsGrants_manualAsserted (event : InputEvent) : StepsGrants s beacon (exec (.manualAsserted event) s) := by
  refine .guarded fun _ => ?_
  cases event with
  | raw => exact .stands (stands_onManual s _) rfl
  | stable => exact grantStep_takeManual s true _

theorem stepsGrants_manualReleased (event : InputEvent) : StepsGrants s beacon (exec (.manualReleased event) s) := by
  refine .guarded fun _ => ?_
  cases event with
  | raw => exact .stands (stands_onManual s _) rfl
  | stable => exact grantStep_takeManual s false _

theorem stepsGrants_doorContactChange (d : Fin 8) (isOpen : Bool) (event : InputEvent) :
    StepsGrants s beacon (exec (.doorContactChange d isOpen event) s) := by
  refine .guarded fun _ => ?_
  cases event with
  | raw => exact .stands (stands_onDoor s d fun _ => rfl) rfl
  | stable => exact .ended (leavesGrounds_onDoor s d fun r => contactFirst_granted _ _ r _)

theorem stepsGrants_doorTrailerChange (d : Fin 8) (isPresent : Bool) (event : InputEvent) :
    StepsGrants s beacon (exec (.doorTrailerChange d isPresent event) s) := by
  refine .guarded fun _ => ?_
  cases event with
  | raw => exact .stands (stands_onDoor s d fun _ => rfl) rfl
  | stable => exact .ended (leavesGrounds_onDoor s d fun r => trailerFirst_granted _ _ r _)

theorem stepsGrants_restart (sender : Station) (p : Vector Byte 9) : StepsGrants s beacon (exec (.restart sender p) s) := by
  refine ⟨_, rfl, ?_⟩
  split_ifs
  · exact grantStep_takeFrame s _ _ _ fun _ _ => .rests rfl
  · exact grantStep_passFrame s _ _ _
  · exact .refl s

theorem onFan_claims (n : Fin 2) (f : FanConfig → Fan → Fan) : (onFan n f s).alloc.claims = s.alloc.claims := by
  unfold onFan
  split <;> rfl

/-- The step of every command of a running station but the settle delay's own. -/
theorem exec_stepsGrants {c : Instr} (hrun : s.start.running = true) (hc : c ≠ .pendingIncreaseExpiry) :
    StepsGrants s (PeerBeacon s c) (exec c s) := by
  cases c
  case powerOnReset => exact ⟨_, rfl, .rests rfl⟩
  case startSequenceEnd r => exact ⟨_, congrArg Host.Outcome.next (if_pos hrun), .refl s⟩
  case lineIdle bits => exact stepsGrants_lineIdle s bits
  case startDelimiter => exact .stands fun _ => stands_setLine s _
  case frameDiscarded bits => exact .stands fun _ => stands_setLine s _
  case transmitAttemptStart => exact stepsGrants_transmitAttemptStart s
  case lostArbitration k => exact stepsGrants_lostArbitration s k
  case bitError k => exact stepsGrants_bitError s k
  case abortEnd => exact stepsGrants_abortEnd s
  case transmissionComplete => exact stepsGrants_transmissionComplete s
  case beaconReceived st p => exact ⟨_, rfl, grantStep_beaconFrame s st p⟩
  case handoffReceived st p => exact ⟨_, rfl, grantStep_frameEvent s _ _ _ fun u => leavesGrounds_deliverHandoff u st p⟩
  case shiftReceived st p => exact ⟨_, rfl, grantStep_frameEvent s _ _ _ fun u => leavesGrounds_deliverShift u p⟩
  case alarmReceived st p => exact ⟨_, rfl, grantStep_frameEvent s _ _ _ fun u => leavesGrounds_deliverAlarm u st p⟩
  case replyReceived st p => exact ⟨_, rfl, grantStep_passFrame s _ _ _⟩
  case lightSet st p | heatHold st p | heatSetpoint st p | heatBoost st p | ventPurge st p | ventStop st p =>
    exact ⟨_, rfl, grantStep_takeDirective s _ _ _ fun u => leavesGrounds_placeEntry u _ _ st p⟩
  case release st p => exact ⟨_, rfl, grantStep_takeDirective s _ _ _ fun u => .of_grants (sameGrants_setOverrides u _)⟩
  case alarmAck st p => exact ⟨_, rfl, grantStep_takeDirective s _ _ _ fun u => .of_grants (sameGrants_setAlarms u _)⟩
  case restart st p => exact stepsGrants_restart s st p
  case queryStatus | queryPeer | queryShift | queryDoor | queryOverrides | queryLoads =>
    exact ⟨_, rfl, grantStep_takeQuery s _ _ _⟩
  case directiveDropped st p =>
    refine ⟨_, rfl, ?_⟩
    split
    · exact .refl s
    · exact grantStep_passFrame s _ _ _
  case queryDropped st p =>
    refine ⟨_, rfl, ?_⟩
    split
    · exact .refl s
    · exact grantStep_passFrame s _ _ _
  case beaconScheduling => exact .event ((leavesGrounds_scheduleBeacon s).trans (leavesGrounds_balance _))
  case entryStale n => exact stepsGrants_entryStale s n
  case entryLost n => exact stepsGrants_entryLost s n
  case listenTimerExpiry => exact .event (leavesGrounds_endListen s)
  case isolationTimerExpiry => exact .event (leavesGrounds_setView s)
  case timebaseLost => exact stepsGrants_timebaseLost s
  case timebaseRecovered => exact stepsGrants_timebaseRecovered s
  case shiftInputChange pressed event => exact stepsGrants_shiftInputChange s pressed event
  case changeoverTimerExpiry => exact .event (.of_grants (sameGrants_setShift s _))
  case lockoutTimerExpiry => exact .stands fun _ => stands_setShift s
  case gateBeamChange beam => exact .event (leavesGrounds_beamChange s beam)
  case invalidTransition => exact .event (.of_grants (sameGrants_sameBay s (sameBay_invalidTransition _ _)))
  case gateFaultClear => exact .event (.of_grants (sameGrants_sameBay s (sameBay_clearGateFault _)))
  case presenceAsserted z => exact .event (.of_grants (sameGrants_onZone s z _))
  case presenceReleased z => exact .stands fun ⟨_, hset⟩ => stands_releaseZone s hset
  case zoneHoldExpiry z => exact .event (.of_grants (sameGrants_onZone s z _))
  case vacancyCorrection => exact .event (leavesGrounds_setTraffic s)
  case leadInTimerExpiry => exact .event (.of_grants (sameGrants_setLighting s rfl rfl))
  case vacatingTimerExpiry => exact .event (.of_grants (sameGrants_setLighting s rfl rfl))
  case levelRiseStep i => exact .draws (fun _ => stands_stepRise s i) rfl
  case manualAsserted event => exact stepsGrants_manualAsserted s event
  case manualReleased event => exact stepsGrants_manualReleased s event
  case doorContactChange d isOpen event => exact stepsGrants_doorContactChange s d isOpen event
  case doorTrailerChange d isPresent event => exact stepsGrants_doorTrailerChange s d isPresent event
  case doorHoldExpiry d => exact .event (leavesGrounds_onDoor s d fun _ => rfl)
  case doorFaultClear d => exact .event (leavesGrounds_onDoor s d fun r => clearDoorFault_granted _ _ r)
  case boostRecoveryExpiry => exact .event (.of_grants (sameGrants_setDoors s))
  case temperatureReading value => exact .event (leavesGrounds_readTemperature s value)
  case stageMinOnExpiry k => exact .event (.refl s)
  case stageMinOffExpiry k => exact .event (.refl s)
  case gasSample g value => exact .event (leavesGrounds_sampleGas s g value)
  case coastTimerExpiry n =>
    refine .draws (fun hdue => ?_) (onFan_claims s n _)
    obtain ⟨-, hstate, -⟩ := (coastDue_iff s n).mp hdue
    exact stands_coastExpires s hstate
  case rampTimerExpiry n =>
    refine .draws (fun hdue => ?_) (onFan_claims s n _)
    obtain ⟨-, hstate, -⟩ := (rampDue_iff s n).mp hdue
    exact stands_rampExpires s hstate
  case overrideExpiry k source origin => exact .event (leavesGrounds_onStackOf s k _)
  case pendingIncreaseExpiry => exact absurd rfl hc
  case meterPulse => exact .draws (fun _ => stands_takePulse s) rfl
  case meterCheck => exact stepsGrants_meterCheck s
  case doorSettlingEnds d isOpen isPresent => exact .event (leavesGrounds_onDoor s d fun r => settlingEnds_granted _ _ r _ _)
  case openSecondsAdvance d => exact .stands fun _ => stands_onDoor s d (advanceOpenSecond_curtain _)

end Exec

end Sys2Proof.Machine
end

section
/-! SUPPORT. Proofs of O54: a shed computation within its cap, and the grants after every event (R149, R155, R157 to R161, R163). -/

namespace Sys2Proof.Machine

/-! ## Events that recompute -/

theorem GrantsFormed.of_alloc {s u t : State} (h : GrantsFormed u t) (happlied : u.alloc.applied = s.alloc.applied)
    (hdue : u.alloc.pendingDue = s.alloc.pendingDue) : GrantsFormed s t := by
  obtain ⟨hrequests, hcomputed, hexceeded, hfalls, hmoved, hapart⟩ := h
  rw [happlied] at hfalls hmoved
  rw [hdue] at hmoved
  exact ⟨hrequests, hcomputed, hexceeded, hfalls, hmoved, hapart⟩

/-- After a recomputation the cause of CAP_EXCEEDED stands exactly in JOINED with D0 and the reserves above the cap (R158, R163). -/
theorem GrantsFormed.capExceeded_iff {s t : State} (h : GrantsFormed s t) : t.alloc.capExceeded = true ↔
    t.view.link = .joined ∧ t.start.config.header.cap < reserveSum (standings t) + tierZeroDemand (standings t) := by
  by_cases hj : t.view.link = .joined
  · rw [h.exceeded hj, decide_eq_true_iff]
    exact ⟨fun hcap => ⟨hj, hcap⟩, fun ⟨_, hcap⟩ => hcap⟩
  · obtain ⟨-, -, -, hnone⟩ := h.apart hj
    simp [hnone, hj]

/-- CAP_EXCEEDED is active exactly where its cause stands (R149). -/
theorem EventFrame.cap_exceeded {before s t : State} (h : EventFrame before s t) :
    conditionSet t.alarms.active 9 = t.alloc.capExceeded := h.condition (by decide)

/-- What the event of a recomputation leaves. -/
def Recomputed (s t : State) : Prop :=
  GrantsFormed s t ∧ (conditionSet t.alarms.active 9 = true ↔
    t.view.link = .joined ∧ t.start.config.header.cap < reserveSum (standings t) + tierZeroDemand (standings t))

theorem recomputed_finish {s u : State} {work : Work} (happlied : u.alloc.applied = s.alloc.applied)
    (hdue : u.alloc.pendingDue = s.alloc.pendingDue)
    (hwork : workFor s work (publish s u) = .recompute ∨ demandRecords (finish s work u) ≠ demandRecords s) :
    Recomputed s (finish s work u) := by
  have hformed := finish_grants s work u hwork
  refine ⟨hformed.of_alloc happlied hdue, ?_⟩
  rw [(finish_frame s work u).cap_exceeded]
  exact hformed.capExceeded_iff

/-- The end of an event leaves the unaccounted term as the event had it. -/
theorem finish_term (before u : State) (work : Work) : (finish before work u).alloc.term = u.alloc.term := by
  have hmeter := (finish_frame before work u).meter
  generalize finish before work u = t at hmeter ⊢
  exact (congrArg Alloc.term hmeter :)

/-- A ground to recompute, as it shows after a command (R157). -/
def Ground (s : State) (c : Instr) (t : State) : Prop :=
  t.view.link ≠ s.view.link ∨ demandRecords t ≠ demandRecords s ∨ t.alloc.term ≠ s.alloc.term ∨
    entryStates t ≠ entryStates s ∨ PeerBeacon s c

theorem Alloc.claims_eq_iff {a b : Alloc} : a.claims = b.claims ↔
    a.requests = b.requests ∧ a.computed = b.computed ∧ a.applied = b.applied ∧ a.pendingDue = b.pendingDue ∧
      a.term = b.term ∧ a.capExceeded = b.capExceeded := by
  simp [Alloc.claims, Alloc.settlement, and_assoc]

section Steps

variable {s t : State} {c : Instr}

/-- A peer's BEACON ends in a recomputation, whatever it changes (R157). -/
theorem peerBeacon_recomputes (hrun : s.start.running = true) (hbeacon : PeerBeacon s c) (hexec : exec c s = .next t) :
    Recomputed s t := by
  obtain ⟨sender, p, rfl, hrecv, hpeer⟩ := hbeacon
  have ⟨_, _, hother⟩ := hpeer
  have hclose : closeBeacon sender s (deliverBeacon sender p (heard kindBeacon sender p.toList s)) =
      finish s .recompute (deliverBeacon sender p (heard kindBeacon sender p.toList s)) :=
    if_pos ((isPeer_iff sender s).mpr hpeer)
  have ht : t = finish s .recompute (deliverBeacon sender p (heard kindBeacon sender p.toList s)) := by
    have hnext : exec (.beaconReceived sender p) s =
        .next (closeBeacon sender s (deliverBeacon sender p (heard kindBeacon sender p.toList s))) :=
      congrArg Host.Outcome.next (takeFrame_of_other hrun hrecv hother)
    exact (Host.Outcome.next.inj (hnext.symm.trans hexec)).symm.trans hclose
  have halloc := ((sameGrants_heard s kindBeacon sender p.toList).trans (sameGrants_deliverBeacon _ sender p)).alloc
  rw [ht]
  exact recomputed_finish (congrArg Alloc.applied halloc) (congrArg Alloc.pendingDue halloc) (.inl (workFor_recompute _ _))

/-- A step with a ground recomputes. -/
theorem GrantStep.recomputed (h : GrantStep s (PeerBeacon s c) t) (hrun : t.start.running = true) (hquiet : ¬PeerBeacon s c)
    (hground : Ground s c t) : Recomputed s t := by
  cases h with
  | stands hstands hclaims =>
    obtain ⟨-, -, -, -, hterm, -⟩ := Alloc.claims_eq_iff.mp hclaims
    have hrecords : demandRecords t = demandRecords s := demandRecords_of_asked (asked_of_still hstands.loads)
    have hentries : entryStates t = entryStates s := congrArg (List.map PeerEntry.state) hstands.entries
    rcases hground with h | h | h | h | h
    · exact absurd hstands.link h
    · exact absurd hrecords h
    · exact absurd hterm h
    · exact absurd hentries h
    · exact absurd h hquiet
  | @ends u a hgrounds ha =>
    obtain ⟨-, -, happlied, hdue, hterm, -⟩ := Alloc.claims_eq_iff.mp ha
    refine recomputed_finish happlied hdue ?_
    rcases hground with h | h | h | h | h
    · rw [finish_view] at h
      exact .inl (if_pos (.inl (by rwa [(publish_frame _ _).view])))
    · exact .inr h
    · exact absurd ((finish_term _ _ _).trans hterm) h
    · rw [entryStates, finish_view] at h
      exact absurd hgrounds.entries h
    · exact absurd h hquiet
  | recomputes happlied hdue => exact recomputed_finish happlied hdue (.inl (workFor_recompute _ _))
  | rests hrest => simp [hrest] at hrun

/-- A step without a ground leaves the grants (R157, R161). -/
theorem GrantStep.leaves (h : GrantStep s (PeerBeacon s c) t) (hrun : t.start.running = true) (hd : DemandsOk s)
    (hnone : ¬Ground s c t) :
    t.alloc.requests = s.alloc.requests ∧ t.alloc.computed = s.alloc.computed ∧ t.alloc.applied = s.alloc.applied ∧
      t.alloc.pendingDue = s.alloc.pendingDue ∧ t.alloc.capExceeded = s.alloc.capExceeded := by
  simp only [Ground, not_or, not_not] at hnone
  obtain ⟨hlink, hrecords, hterm, hentries, hquiet⟩ := hnone
  cases h with
  | stands hstands hclaims =>
    obtain ⟨hrequests, hcomputed, happlied, hdue, -, hcap⟩ := Alloc.claims_eq_iff.mp hclaims
    exact ⟨hrequests, hcomputed, happlied, hdue, hcap⟩
  | @ends u a hgrounds ha =>
    obtain ⟨hrequests, hcomputed, happlied, hdue, -, hcap⟩ := Alloc.claims_eq_iff.mp ha
    rw [finish_view] at hlink
    obtain ⟨happlied', hcomputed', hdue', hrequests', hcap'⟩ :=
      finish_leaves_grants (u := u.setAlloc a) hd hgrounds.start hlink hgrounds.idle (by decide) hrecords
    exact ⟨hrequests'.trans hrequests, hcomputed'.trans hcomputed, happlied'.trans happlied, hdue'.trans hdue, hcap'.trans hcap⟩
  | @recomputes u happlied hdue hground =>
    rw [finish_term] at hterm
    rw [entryStates, finish_view] at hentries
    rcases hground with h | h | h
    · exact absurd h hquiet
    · exact absurd hterm h
    · exact absurd hentries h
  | rests hrest => simp [hrest] at hrun

/-- A settle delay that has not passed does nothing (R161). -/
theorem exec_pendingIncreaseExpiry_early (h : ∀ due, s.alloc.pendingDue = some due → s.clock < due) :
    exec .pendingIncreaseExpiry s = .next s := by
  refine congrArg Host.Outcome.next (if_neg fun hdue => ?_)
  obtain ⟨-, due, hpending, hpassed⟩ := (pendingDue_iff s).mp hdue
  exact absurd (h due hpending) (Nat.not_lt.mpr hpassed)

end Steps

/-! ## The statement -/

/-- Settles O54: the shed computation tier by tier (`fillTier_level`, `shedComputation_within`, `grantOf_fillTier_le`), and every command by
the step it takes on the grants (`exec_stepsGrants`), with a ground to recompute or without one. -/
theorem shedStaysInBudget : Obligations.ShedStaysInBudget := by
  refine ⟨fun s => ⟨standings_length s, fun n hn => ⟨standings_own hn, fun hother e he => ?_⟩, allowance_of_loud,
    fun hsilent hcauses => ?_⟩, fun l p r => ?_, fun c s t hrun hrun' hexec hc hground => ?_,
    fun c s t hrun hrun' hexec hd hearly hlink hrecords hterm hentries hbeacon => ?_, fun r q => rfl, fun c l => ?_, fun c l => ?_⟩
  · rw [standings_peer hn hother he]
    exact ⟨fun h => congrArg some (standingOf_absent h), fun b hb =>
      ⟨fun h hlink => congrArg some (standingOf_joined h hb hlink), fun h hlink => congrArg some (standingOf_apart h hb hlink),
        fun h => congrArg some (standingOf_lost h hb)⟩⟩
  · have hsame : allowance s = silentAllowance s.cfg s.view.causes := by rw [allowance, hsilent]
    rw [hsame]
    exact silentAllowance_least s.cfg hcauses
  · exact ⟨⟨rfl, Nat.zero_add _⟩, ⟨Nat.zero_add _, rfl⟩, fun _ => rfl, rfl, rfl, rfl⟩
  · obtain ⟨u, hu, hstep⟩ := exec_stepsGrants s hrun hc
    obtain rfl : u = t := Host.Outcome.next.inj (hu.symm.trans hexec)
    by_cases hbeacon : PeerBeacon s c
    · exact peerBeacon_recomputes hrun hbeacon hexec
    · exact hstep.recomputed hrun' hbeacon hground
  · by_cases hc : c = .pendingIncreaseExpiry
    · subst hc
      obtain rfl : s = t := Host.Outcome.next.inj ((exec_pendingIncreaseExpiry_early (hearly rfl)).symm.trans hexec)
      exact ⟨rfl, rfl, rfl, rfl, rfl⟩
    · obtain ⟨u, hu, hstep⟩ := exec_stepsGrants s hrun hc
      obtain rfl : u = t := Host.Outcome.next.inj (hu.symm.trans hexec)
      refine hstep.leaves hrun' hd ?_
      simp only [Ground, not_or, not_not]
      refine ⟨hlink, hrecords, hterm, hentries, ?_⟩
      rintro ⟨sender, p, hbeaconed, hrecv, h32, hcfg, hother⟩
      exact hother (hbeacon sender p hbeaconed hrecv h32 hcfg)
  · intro r requests rest budget t fill left hmem
    have htier (u : Tier) : requests u = tierRequests u l := rfl
    have hfill : fill = (fillTier left (requests t)).1 := by
      obtain ⟨h1, h2, h3⟩ := shedComputation_tiers c l
      simp only [List.mem_cons, List.not_mem_nil, or_false, Prod.mk.injEq] at hmem
      rcases hmem with ⟨rfl, rfl, rfl⟩ | ⟨rfl, rfl, rfl⟩ | ⟨rfl, rfl, rfl⟩
      · exact h1
      · rw [fillTier_rest] at h2
        exact h2
      · rw [fillTier_rest, fillTier_rest] at h3
        exact h3
    obtain ⟨hfits, hlevel⟩ := fillTier_level left (requests t)
    rw [hfill]
    exact ⟨hfits, fun pre post x hperm hsorted hshort hfull hstop => hlevel pre post x hperm hsorted hshort ⟨hfull, hstop⟩⟩
  · intro r spent granted
    exact ⟨decide_eq_true_iff, shedComputation_within c l,
      fun x _ => ⟨grantOf_fillTier_le _ _ _, grantOf_fillTier_le _ _ _, grantOf_fillTier_le _ _ _⟩⟩

end Sys2Proof.Machine
end

section
/-! SUPPORT. Proofs of O29 and O30: the configured values of an image in terms of its bytes (R175, R176, Table 52). -/

namespace Sys2Proof.Machine

/-! ## Two-byte fields -/

theorem half_eq (hi lo : Byte) : half hi lo = BitVec.ofNat 16 (hi.toNat * 256 + lo.toNat) := by
  rw [← word16_eq, word16, BitVec.ofNat_toNat, BitVec.setWidth_eq]

/-- A two-byte field in two's complement (R181). -/
theorem signed16_eq (hi lo : Byte) : signed16 hi lo =
    if hi.toNat * 256 + lo.toNat < 32768 then ((hi.toNat * 256 + lo.toNat : Nat) : Int)
    else ((hi.toNat * 256 + lo.toNat : Nat) : Int) - 65536 := by
  have hword : (half hi lo).toNat = hi.toNat * 256 + lo.toNat := word16_eq hi lo
  rw [signed16, BitVec.toInt_eq_toNat_cond, hword]
  split_ifs <;> omega

/-! ## Values of Table 52 -/

theorem channelModeOf_eq (code : Nat) : channelModeOf code = if code = 0 then .offForced else if code = 2 then .followInverted
    else if code = 3 then .fullForced else .follow := by
  unfold channelModeOf
  split <;> simp_all

/-- The limits as placed: where they stand too close, h apart at the nearest places of the range (R105). -/
theorem placeLimits_eq (low high : Int) (h : Nat) : placeLimits low high h =
    (if low ≤ high - h then low else max (-400) (high - h), if low ≤ high - h then high else max (-400 + h) high) := by
  unfold placeLimits
  split_ifs <;> ext <;> dsimp only <;> omega

/-! ## The start outcome -/

section Outcome

variable {image : List Byte}

theorem imageOutcome_noAnswer (h : image.length < 256) : imageOutcome image = .noAnswer := if_pos h

theorem imageOutcome_sum (hlen : 256 ≤ image.length) (hsum : imageSum image ≠ image16 image 254) :
    imageOutcome image = .sum := by
  rw [imageOutcome, if_neg (Nat.not_lt.mpr hlen), if_pos hsum]

theorem imageOutcome_format (hlen : 256 ≤ image.length) (hsum : imageSum image = image16 image 254)
    (hformat : image8 image 0 ≠ 0x21) : imageOutcome image = .format := by
  have hbyte : imageByte image 0 ≠ 0x21 := fun h => hformat (congrArg BitVec.toNat h)
  rw [imageOutcome, if_neg (Nat.not_lt.mpr hlen), if_neg (not_not.mpr hsum), if_pos hbyte]

theorem imageOutcome_good (hlen : 256 ≤ image.length) (hsum : imageSum image = image16 image 254)
    (hformat : image8 image 0 = 0x21) : imageOutcome image = .good := by
  have hbyte : imageByte image 0 = 0x21 := BitVec.eq_of_toNat_eq hformat
  rw [imageOutcome, if_neg (Nat.not_lt.mpr hlen), if_neg (not_not.mpr hsum), if_neg (not_not.mpr hbyte)]

/-- An image that fails its check leaves its reason and the built-in defaults (R175, R176). -/
theorem start_of_failed {reason : StartOutcome} (h : imageOutcome image = reason) (hfail : reason ≠ .good) (strapped : Nat) :
    startOutcome image strapped = reason ∧ configFor image = Config.builtIn := by
  subst h
  exact ⟨if_neg fun hgood => hfail hgood.1, if_neg hfail⟩

/-- A GOOD image leaves its values, and STRAP_RANGE where the strapped number lies outside them (R175). -/
theorem start_of_good (h : imageOutcome image = .good) (strapped : Nat) :
    startOutcome image strapped = (if (headerOf image).nCfg ≤ strapped then .strapRange else .good) ∧
      configFor image = configOf image := by
  refine ⟨?_, if_pos h⟩
  rw [startOutcome, h]
  simp only [true_and]
  rfl

end Outcome

/-! ## The statements -/

/-- Settles O29: the check by its reasons in order, and each value of a GOOD image by the equations of its field. -/
theorem startOutcomes : Obligations.StartOutcomes := by
  intro image strapped at8 at16 sum nCfg temperature gas fan
  have h16 : ∀ i, image16 image i = at16 i := fun i => word16_eq _ _
  have hsigned : ∀ i, clampInt (-400) 600 (imageSigned image i) = temperature i := fun i => by
    rw [imageSigned, signed16_eq]
    rfl
  refine ⟨fun hlen => start_of_failed (imageOutcome_noAnswer hlen) (by decide) strapped, fun hlen hsum => ?_,
    fun hlen hsum hformat => ?_, fun hlen hsum hformat => ?_, rfl, ?_⟩
  · exact start_of_failed (imageOutcome_sum hlen (h16 254 ▸ hsum)) (by decide) strapped
  · exact start_of_failed (imageOutcome_format hlen (h16 254 ▸ hsum) hformat) (by decide) strapped
  · obtain ⟨houtcome, hconfig⟩ := start_of_good (imageOutcome_good hlen (h16 254 ▸ hsum) hformat) strapped
    refine ⟨houtcome, hconfig.trans ?_⟩
    rw [configOf, Config.mk.injEq]
    refine ⟨?_, List.map_congr_left fun n _ => ?_, ?_, ?_, ?_, ?_, ?_, ?_, ?_⟩
    · simp only [headerOf, h16]
      rfl
    · simp only [pageOf, h16, hsigned]
      rfl
    · simp only [lightingOf, h16, channelModeOf_eq]
      rfl
    · simp only [doorsOf, h16]
      rfl
    · simp only [heatOf, h16, hsigned, placeLimits_eq]
      rfl
    · simp only [airOf, fanOf, h16]
      rfl
    · simp only [gateOf, h16]
      rfl
    · simp only [meterOf, h16]
      rfl
    · simp only [alarmsOf, half_eq]
      rfl
  · decide

/-- Settles O30: the ranges of an image's values and of the built-in defaults (`configFor_ok`). -/
theorem configurationInRange : Obligations.ConfigurationInRange := configFor_ok

end Sys2Proof.Machine
end

section
/-! SUPPORT. Proofs of O4, O32 and O55: the starts alone touch the start block, and during a start sequence little else acts (R174). -/

namespace Sys2Proof.Machine

/-! ## Commands of a running station -/

/-- The command leaves the start block, and changes nothing while a start sequence is under way (R174, assumption log 2). -/
def Aloof (s : State) (a : Answer) : Prop :=
  ∃ t, a = .next t ∧ t.start = s.start ∧ (s.start.running = false → t = s)

namespace Aloof

variable {s u : State} {c : Prop} [Decidable c]

theorem refl (s : State) : Aloof s (.next s) := ⟨s, rfl, rfl, fun _ => rfl⟩

/-- A command whose test asks for a running station. -/
theorem guarded (hidle : s.start.running = false → ¬c) (hu : u.start = s.start) : Aloof s (.next (if c then u else s)) := by
  refine ⟨_, rfl, ?_, fun hrun => if_neg (hidle hrun)⟩
  split
  · exact hu
  · rfl

/-- Such a command whose change ends its event. -/
theorem event {work : Work} (hidle : s.start.running = false → ¬c) (hu : u.start = s.start) :
    Aloof s (.next (if c then finish s work u else s)) := guarded hidle ((finish_start s work u).trans hu)

/-- Such a command whose change is followed by the draws alone. -/
theorem draws (hidle : s.start.running = false → ¬c) (hu : u.start = s.start) :
    Aloof s (.next (if c then measure u else s)) := guarded hidle ((stands_measure u).start.trans hu)

end Aloof

section Exec

variable (s : State)

/-! ## Accepted frames -/

section Frames

variable (kind : Nat) (sender : Station) (payload : List Byte)

/-- No frame is accepted during a start sequence (R10, R24). -/
theorem takeFrame_asleep (deliver : State → State) (close : State → State → State) (hrun : s.start.running = false) :
    takeFrame kind sender payload deliver close s = s := if_neg (by simp [mayAccept, hrun])

theorem aloof_takeFrame {deliver : State → State} {close : State → State → State}
    (h : ∀ u, (close s (deliver u)).start = u.start) : Aloof s (.next (takeFrame kind sender payload deliver close s)) := by
  refine ⟨_, rfl, ?_, takeFrame_asleep s kind sender payload deliver close⟩
  have hheard := (heard_frame kind sender payload s).start
  rcases takeFrame_cases kind sender payload deliver close s with ⟨-, ht⟩ | ⟨-, -, ht⟩ | ⟨-, -, ht⟩
  · rw [ht]
  · rw [ht, finish_start, (sameGrants_addCause _ _).start, hheard]
  · rw [ht, h, hheard]

/-- A frame whose delivery leaves the start block and ends its event. -/
theorem aloof_frameEvent {deliver : State → State} (h : ∀ u, SameGrants u (deliver u)) :
    Aloof s (.next (takeFrame kind sender payload deliver (fun b t => finish b .none t) s)) :=
  aloof_takeFrame s kind sender payload fun u => (finish_start _ _ _).trans (h u).start

theorem finishLink_start (before u : State) : (finishLink before u).start = u.start := by
  rcases finishLink_cases before u with h | h <;> rw [h]
  exact finish_start _ _ _

theorem aloof_passFrame : Aloof s (.next (passFrame kind sender payload s)) :=
  aloof_takeFrame s kind sender payload fun u => finishLink_start s u

theorem aloof_takeDirective (k : DirectiveKind) (p : Vector Byte 9) {deliver : State → State}
    (h : ∀ u, SameGrants u (deliver u)) : Aloof s (.next (takeDirective k sender p deliver s)) := by
  unfold takeDirective
  split_ifs
  · exact aloof_frameEvent s _ _ _ h
  · exact aloof_passFrame s _ _ _
  · exact .refl s

theorem aloof_takeQuery (row : Nat) (p : Vector Byte 3) : Aloof s (.next (takeQuery row sender p s)) := by
  unfold takeQuery
  split_ifs
  · exact aloof_takeFrame s _ _ _ fun u => (finishLink_start s _).trans (sameGrants_offer u _).start
  · exact aloof_passFrame s _ _ _
  · exact .refl s

theorem closeBeacon_start (before u : State) : (closeBeacon sender before u).start = u.start := by
  unfold closeBeacon
  split
  · exact finish_start _ _ _
  · exact finishLink_start _ _

end Frames

/-! ## Commands with cases of their own -/

theorem endAbort_start : (endAbort s).start = s.start := by
  unfold endAbort
  split_ifs
  · rfl
  · rfl
  · exact (finish_start _ _ _).trans (sameGrants_resetLink _).start

theorem completeTransmission_start (x : Slot) : (completeTransmission x s).start = s.start := by
  have hlink (l : Line) : (completeLink (s.setLine l)).start = s.start := (sameGrants_completeLink _).start
  unfold completeTransmission
  dsimp only
  split
  · exact (finish_start _ _ _).trans (hlink _)
  · exact hlink _

theorem aloof_shiftInputChange (pressed : Bool) (event : InputEvent) : Aloof s (exec (.shiftInputChange pressed event) s) := by
  refine .guarded (fun h => by simp [shiftInputAdmits, h]) ?_
  cases event with
  | raw => rfl
  | stable =>
    dsimp only
    split
    · exact (finish_start _ _ _).trans (sameGrants_press _).start
    · rfl

/-- Every command but the starts and the timebase events. -/
theorem exec_aloof {c : Instr} (hreset : c ≠ .powerOnReset) (hend : ∀ r, c ≠ .startSequenceEnd r)
    (hrestart : ∀ st p, c ≠ .restart st p) (hlost : c ≠ .timebaseLost) (hrecovered : c ≠ .timebaseRecovered) :
    Aloof s (exec c s) := by
  cases c
  case powerOnReset => exact absurd rfl hreset
  case startSequenceEnd r => exact absurd rfl (hend r)
  case restart st p => exact absurd rfl (hrestart st p)
  case timebaseLost => exact absurd rfl hlost
  case timebaseRecovered => exact absurd rfl hrecovered
  case lineIdle bits => exact .guarded (fun h => by simp [h]) (by split <;> rfl)
  case startDelimiter | frameDiscarded => exact .guarded (fun h => by simp [h]) rfl
  case transmitAttemptStart => exact .guarded (fun h => by simp [mayAttempt, h]) (by split <;> rfl)
  case lostArbitration | bitError => exact .guarded (fun h => by simp [h]) (by (repeat' split) <;> rfl)
  case abortEnd => exact .guarded (fun h => by simp [h]) (endAbort_start s)
  case transmissionComplete =>
    refine .guarded (fun h => by simp [h]) ?_
    split
    · exact completeTransmission_start s _
    · rfl
  case beaconReceived st p =>
    exact aloof_takeFrame s _ _ _ fun u => (closeBeacon_start st s _).trans (sameGrants_deliverBeacon u st p).start
  case handoffReceived st p => exact aloof_frameEvent s _ _ _ fun u => sameGrants_deliverHandoff u st p
  case shiftReceived st p => exact aloof_frameEvent s _ _ _ fun u => sameGrants_deliverShift u p
  case alarmReceived st p => exact aloof_frameEvent s _ _ _ fun u => sameGrants_deliverAlarm u st p
  case replyReceived st p => exact aloof_passFrame s _ _ _
  case lightSet st p | heatHold st p | heatSetpoint st p | heatBoost st p | ventPurge st p | ventStop st p =>
    exact aloof_takeDirective s _ _ _ fun u => sameGrants_placeEntry u _ _ st p
  case release st p => exact aloof_takeDirective s _ _ _ fun u => sameGrants_setOverrides u _
  case alarmAck st p => exact aloof_takeDirective s _ _ _ fun u => sameGrants_setAlarms u _
  case queryStatus | queryPeer | queryShift | queryDoor | queryOverrides | queryLoads => exact aloof_takeQuery s _ _ _
  case directiveDropped st p =>
    change Aloof s (.next (if _ then s else _))
    split
    · exact .refl s
    · exact aloof_passFrame s _ _ _
  case queryDropped st p =>
    change Aloof s (.next (if _ then s else _))
    split
    · exact .refl s
    · exact aloof_passFrame s _ _ _
  case beaconScheduling =>
    exact .event (fun h => by simp [beaconDue, h]) ((sameGrants_scheduleBeacon s).trans (sameGrants_balance _)).start
  case entryStale n => exact .event (fun h => by simp [staleDue, h]) rfl
  case entryLost n => exact .event (fun h => by simp [lostDue, h]) (sameGrants_lowerLost _ _).start
  case listenTimerExpiry => exact .event (fun h => by simp [listenDue, h]) (sameGrants_endListen s).start
  case isolationTimerExpiry => exact .event (fun h => by simp [isolationDue, h]) rfl
  case shiftInputChange pressed event => exact aloof_shiftInputChange s pressed event
  case changeoverTimerExpiry => exact .event (fun h => by simp [changeoverDue, h]) rfl
  case lockoutTimerExpiry => exact .guarded (fun h => by simp [lockoutDue, h]) rfl
  case gateBeamChange beam => exact .event (fun h => by simp [gateSampled, h]) (sameGrants_beamChange s beam).start
  case invalidTransition => exact .event (fun h => by simp [gateSampled, h]) rfl
  case gateFaultClear => exact .event (fun h => by simp [gateClearDue, h]) rfl
  case presenceAsserted z => exact .event (fun h => by simp [h]) rfl
  case presenceReleased z => exact .guarded (fun h => by simp [h]) rfl
  case zoneHoldExpiry z => exact .event (fun h => by simp [zoneDue, h]) rfl
  case vacancyCorrection => exact .event (fun h => by simp [vacancyDue, h]) rfl
  case leadInTimerExpiry => exact .event (fun h => by simp [leadInDue, h]) rfl
  case vacatingTimerExpiry => exact .event (fun h => by simp [vacatingDue, h]) rfl
  case levelRiseStep i => exact .draws (fun h => by simp [riseStepDue, h]) rfl
  case manualAsserted event | manualReleased event =>
    refine .guarded (fun h => by simp [manualAdmits, h]) ?_
    cases event with
    | raw => rfl
    | stable => exact finish_start _ _ _
  case doorContactChange d isOpen event =>
    refine .guarded (fun h => by simp [contactAdmits, doorTest, h]) ?_
    cases event with
    | raw => rfl
    | stable => exact finish_start _ _ _
  case doorTrailerChange d isPresent event =>
    refine .guarded (fun h => by simp [trailerAdmits, doorTest, h]) ?_
    cases event with
    | raw => rfl
    | stable => exact finish_start _ _ _
  case doorHoldExpiry d => exact .event (fun h => by simp [doorHoldDue, doorTest, h]) rfl
  case doorFaultClear d => exact .event (fun h => by simp [doorClearDue, doorTest, h]) rfl
  case boostRecoveryExpiry => exact .event (fun h => by simp [boostDue, h]) rfl
  case temperatureReading value =>
    exact .event (fun h => by simp [readingDue, h]) (sameGrants_readTemperature s value).start
  case stageMinOnExpiry k | stageMinOffExpiry k => exact .event (fun h => by simp [stageTest, h]) rfl
  case gasSample g value => exact .event (fun h => by simp [sampleDue, h]) (sameGrants_sampleGas s g value).start
  case coastTimerExpiry n => exact .draws (fun h => by simp [coastDue, h]) (by unfold onFan; split <;> rfl)
  case rampTimerExpiry n => exact .draws (fun h => by simp [rampDue, h]) (by unfold onFan; split <;> rfl)
  case overrideExpiry k source origin => exact .event (fun h => by simp [expiryDue, h]) rfl
  case pendingIncreaseExpiry => exact .event (fun h => by simp [pendingDue, h]) rfl
  case meterPulse => exact .draws (fun h => by simp [pulseAccepted, h]) rfl
  case meterCheck => exact .event (fun h => by simp [checkDue, h]) rfl
  case doorSettlingEnds d isOpen isPresent => exact .event (fun h => by simp [settlingDue, doorTest, h]) rfl
  case openSecondsAdvance d => exact .guarded (fun h => by simp [openSecondsDue, doorTest, h]) rfl

/-! ## Timebase events and RESTART -/

theorem execTimebaseLost_start {t : State} (h : exec .timebaseLost s = .next t) : t.start = s.start := by
  obtain rfl := Host.Outcome.next.inj h
  split_ifs
  · rfl
  · exact (finish_start _ _ _).trans (sameGrants_addCause _ _).start
  · rfl

theorem execTimebaseRecovered_start {t : State} (h : exec .timebaseRecovered s = .next t) : t.start = s.start := by
  obtain rfl := Host.Outcome.next.inj h
  split_ifs
  · exact (finish_start _ _ _).trans (sameGrants_removeCause _ _).start
  · rfl
  · rfl

/-- A RESTART leaves the start block, or begins a start sequence with the strapped number and the configuration kept (R177). -/
theorem execRestart_start {st : Station} {p : Vector Byte 9} {t : State} (h : exec (.restart st p) s = .next t) :
    (t.start = s.start ∨ t.start = { s.start with running := false, cause := .restart }) ∧
      (s.start.running = false → t = s) := by
  obtain rfl := Host.Outcome.next.inj h
  have hpass : Aloof s (.next (passFrame kindDirective st p.toList s)) := aloof_passFrame s _ _ _
  obtain ⟨u, hu, hstart, hidle⟩ := hpass
  obtain rfl := Host.Outcome.next.inj hu
  split_ifs
  · refine ⟨?_, takeFrame_asleep s _ _ _ _ _⟩
    rcases takeFrame_cases kindDirective st p.toList beginRestart (fun _ t => t) s with
      ⟨-, ht⟩ | ⟨-, -, ht⟩ | ⟨-, -, ht⟩
    · rw [ht]
      exact .inl rfl
    · rw [ht, finish_start, (sameGrants_addCause _ _).start, (heard_frame _ _ _ _).start]
      exact .inl rfl
    · rw [ht, beginRestart, (heard_frame _ _ _ _).start]
      exact .inr rfl
  · exact ⟨.inl hstart, hidle⟩
  · exact ⟨.inl rfl, fun _ => rfl⟩

end Exec

/-! ## The statements -/

/-- Settles O32: the timebase events and RESTART by their own lemmas, every other command by `exec_aloof`. -/
theorem startsAlone : Obligations.StartsAlone := by
  intro c s t hexec hreset hend
  by_cases hlost : c = .timebaseLost
  · subst hlost
    exact ⟨fun _ => execTimebaseLost_start s hexec, nofun, fun _ hne => absurd rfl hne⟩
  by_cases hrecovered : c = .timebaseRecovered
  · subst hrecovered
    exact ⟨fun _ => execTimebaseRecovered_start s hexec, nofun, fun _ _ hne => absurd rfl hne⟩
  by_cases hrestart : ∃ st p, c = .restart st p
  · obtain ⟨st, p, rfl⟩ := hrestart
    obtain ⟨hstart, hidle⟩ := execRestart_start s hexec
    exact ⟨fun hne => absurd rfl (hne st p), fun _ _ _ => hstart, fun hrun _ _ => hidle hrun⟩
  · obtain ⟨u, hu, hstart, hidle⟩ := exec_aloof s hreset hend (fun st p h => hrestart ⟨st, p, h⟩) hlost hrecovered
    obtain rfl := Host.Outcome.next.inj (hu.symm.trans hexec)
    exact ⟨fun _ => hstart, fun st p h => absurd ⟨st, p, h⟩ hrestart, fun hrun _ _ => hidle hrun⟩

/-- Settles O4: the reset state, but for the model's own queue and clock. -/
theorem powerOnReset : Obligations.PowerOnReset := fun _ => rfl

/-- Settles O55: what a power-on reset leaves is sound on the line side (`LineOk.powerOn`) and in the units (`unitsSound_powerOn`), and
nothing is granted or on; the rest is said of a running station. -/
theorem invariantsAtReset : Obligations.InvariantsAtReset := by
  have hline : LineOk State.reset := LineOk.powerOn State.reset
  have hunits : UnitsSound State.reset := unitsSound_powerOn State.reset
  have hstopped : State.reset.start.running ≠ true := Bool.false_ne_true
  exact ⟨hunits.config, hunits.shape, hline.link, hline.queue, hunits.overrides, hunits.traffic, hunits.doors, hunits.heat,
    hunits.alarms, fun hrun => absurd hrun hstopped, grantsOk_initial rfl rfl,
    outputsOk_starting rfl rfl (by simp [State.reset, Doors.initial]) rfl rfl, fun hrun => absurd hrun hstopped,
    ⟨fun hrun => absurd hrun hstopped, fun hrun => absurd hrun hstopped⟩, fun hrun => absurd hrun hstopped⟩

end Sys2Proof.Machine
end

section
/-! SUPPORT. Proof of O31: what a start sequence finds, block by block, and the end of its event (R174). -/

namespace Sys2Proof.Machine

/-! ## The first readings and samples -/

/-- The reading held after a start: the first one, unless it is faulty (R106, R107). -/
def heldReading (reading : Option Int) : Option Int := reading.filter fun x => decide (-400 ≤ x ∧ x ≤ 600)

/-- The first reading is held or faults the monitor, and the limits are judged by it afresh (R106 to R109). -/
theorem takeReading_first (c : HeatConfig) (reading : Option Int) {h : Heat} (hfreeze : h.freeze = false)
    (hoverheat : h.overheat = false) : takeReading c reading h = { h with
      last := heldReading reading, fault := decide (heldReading reading = none)
      freeze := (heldReading reading).elim false fun x => decide (x < c.criticalLow)
      overheat := (heldReading reading).elim false fun x => decide (c.high < x) } := by
  by_cases hfaulty : readingFaulty reading = true
  · have hnone : heldReading reading = none := Option.filter_eq_none_iff.mpr fun x hx => by
      have hout := (readingFaulty_iff reading).mp hfaulty x hx
      simp only [decide_eq_true_eq]
      omega
    rw [takeReading_of_faulty hfaulty, hnone]
    rfl
  · cases reading with
    | none => exact absurd rfl hfaulty
    | some x =>
      have hsome : heldReading (some x) = some x := Option.filter_eq_some_iff.mpr ⟨rfl, by
        simp only [readingFaulty, decide_eq_true_eq] at hfaulty ⊢
        omega⟩
      rw [takeReading_of_sound hfaulty, hsome]
      simp [hfreeze, hoverheat]

/-- A level's first sample: one at the threshold asserts it or begins its run (R121). -/
theorem judgeLevel_first (wa wc th band n : Nat) : judgeLevel wa wc th band n ⟨false, 0⟩ =
    if th ≤ n then (if wa ≤ 1 then ⟨true, 0⟩ else ⟨false, 1⟩) else ⟨false, 0⟩ := by
  simp [judgeLevel]

/-- The bay gas class from two channels (R122). -/
theorem higherClass_eq (a b : GasChannel) : higherClass (channelClass a) (channelClass b) =
    if a.critical.asserted = true ∨ b.critical.asserted = true then .critical
    else if a.action.asserted = true ∨ a.fault = true ∨ b.action.asserted = true ∨ b.fault = true then .action else .none := by
  rw [channelClass_eq, channelClass_eq]
  unfold higherClass
  split_ifs <;> simp_all

/-! ## The stages -/

/-- The tier at which a row of Table 25 calls a stage. -/
def calledTier (row : StageCall) : Option Tier :=
  match row with
  | .called t => some t
  | .released _ => none

/-- An OFF stage after a start at `now`, with its first call and the tier it is called at (R113, R118). -/
def firstStage (now : Nat) (call : Bool) (tier : Option Tier) : Stage :=
  { on := false, since := now, call := call, demand := if tier = none then .none else .called, tier := tier, granted := false }

/-- A fresh stage takes its row's demand, and has no grant yet (R113, R118). -/
theorem keepGrant_formStage_fresh (now : Nat) (c : StageConfig) (row : StageCall) (call : Bool) :
    keepGrant (formStage now c row { freshStage now with call := call }) { freshStage now with call := call } =
      firstStage now call (calledTier row) := by
  cases row <;> rfl

section Fresh

variable (s : State) (k : Nat)

/-- The first threshold call of stage `k`, against the page's unoccupied setpoint (R112). -/
def firstCall : Bool := judgedCall s.cfg.heat s.heat.fault s.heat.last (currentPage s).unoccupied k false

/-- The first tier of stage `k`: its row of Table 25 without a HEAT entry, in the unoccupied setpoint (R113). -/
def firstTier : Option Tier :=
  if s.heat.fault then if (currentPage s).pageClass = .working ∧ k = 0 then some 2 else none
  else if s.heat.overheat then none
  else if s.heat.freeze = true ∧ k = 0 then some 0
  else if firstCall s k then some 3 else none

/-- The heat unit with its first setpoint, and the stages as `stages` (R111, R118). -/
def withFirstSetpoint (stages : List Stage) : State :=
  s.setHeat { s.heat with
    setpoint := (currentPage s).unoccupied, source := .unoccupied, effective := (currentPage s).unoccupied, stages := stages }

theorem calledTier_stageRow (hrule : s.overrides.heat = []) (stages : List Stage) :
    calledTier (stageRow (withFirstSetpoint s stages) k (firstCall s k)) = firstTier s k := by
  have hworking : isWorking (withFirstSetpoint s stages) = true ↔ (currentPage s).pageClass = .working := decide_eq_true_iff
  simp only [stageRow, stageCall, withFirstSetpoint, firstTier, State.setHeat_overrides, hrule] at hworking ⊢
  simp only [hworking, rulingEffect, ruling, holdRules, List.foldl_nil, Option.map_none, State.setHeat_heat]
  split_ifs <;> trivial

end Fresh

/-- The heat unit of a start: the page's unoccupied setpoint, and each stage's first call and demand (R111 to R113, R118). -/
theorem reformHeat_fresh {s : State} (hstages : s.heat.stages = List.replicate s.cfg.heat.stages.length (freshStage s.clock))
    (hbay : s.lighting.bay = .vacant) (hboost : s.doors.boost = false) (hrule : s.overrides.heat = []) :
    reformHeat s = withFirstSetpoint s ((List.range s.cfg.heat.stages.length).map fun k =>
      firstStage s.clock (firstCall s k) (firstTier s k)) := by
  have hsettled : settleSetpoint s = withFirstSetpoint s
      (judgeCallsFrom s.cfg.heat s.heat.fault s.heat.last (currentPage s).unoccupied 0 s.heat.stages) := by
    rw [settleSetpoint, formSetpoint, hbay, hboost, hrule]
    simp [judgeCalls, baseSetpoint, rulingEffect, ruling, ruleDelta, withFirstSetpoint]
  have hlist : (reformHeat s).heat.stages = (List.range s.cfg.heat.stages.length).map fun k =>
      firstStage s.clock (firstCall s k) (firstTier s k) := by
    refine List.ext_getElem (by rw [reformHeat_stageCount, hstages]; simp) fun k hk hk' => ?_
    have hcount : k < s.cfg.heat.stages.length := by simpa using hk'
    have hc : (withFirstSetpoint s (judgeCallsFrom s.cfg.heat s.heat.fault s.heat.last (currentPage s).unoccupied 0
      s.heat.stages)).cfg.heat.stages[k]? = some s.cfg.heat.stages[k] := List.getElem?_eq_getElem hcount
    refine Option.some.inj ?_
    rw [← List.getElem?_eq_getElem hk, ← List.getElem?_eq_getElem hk', reformHeat, hsettled, reformStages_getElem? _ hc,
      withFirstSetpoint, State.setHeat_heat, judgeCallsFrom_getElem?, hstages, List.getElem?_replicate_of_lt hcount,
      List.getElem?_map, List.getElem?_range hcount, Nat.zero_add, Option.map_some, Option.map_some, Option.map_some,
      ← calledTier_stageRow s k hrule]
    exact congrArg some (keepGrant_formStage_fresh _ _ _ _)
  have hform : reformHeat s = (settleSetpoint s).setHeat
      { (settleSetpoint s).heat with stages := (reformHeat s).heat.stages } := rfl
  rw [hform, hlist, hsettled]
  rfl

/-! ## The blocks -/

/-- The first link state: LISTEN, or SILENT with a cause (R36, R174 step 6). -/
theorem firstLink_eq {s : State} (hlink : s.view.link = .silent) (hdue : s.view.listenDue = none)
    (hheard : s.view.heard = false) (hisolation : s.view.isolationDue = none) : firstLink s = s.setView { s.view with
      link := if s.view.causes.isEmpty then .listen else .silent
      listenDue := if s.view.causes.isEmpty then some (s.clock + 3 * s.cfg.header.interval) else none } := by
  unfold firstLink enterListen
  split
  · simp only [hheard, hisolation]
  · rw [← hlink, ← hdue]
    rfl

theorem isDefaulted_eq (o : StartOutcome) : isDefaulted o = decide (o = .noAnswer ∨ o = .sum ∨ o = .format) := by
  cases o <;> rfl

/-- The gate tracks the first passage where both beams are found clear (R59, R75). -/
theorem startedTraffic_eq (r : StartReading) (s : State) : startedTraffic r s = { Traffic.initial with
    gate := if s.cfg.gate.present then .ok else .none
    tracking := decide (s.cfg.gate.present = true ∧ r.beamA = false ∧ r.beamB = false)
    beamA := s.cfg.gate.present && r.beamA
    beamB := s.cfg.gate.present && r.beamB
    zones := r.presence.toList.map fun a => { asserted := a, releasedAt := none } } := by
  unfold startedTraffic
  cases s.cfg.gate.present with
  | false => rfl
  | true => cases r.beamA <;> cases r.beamB <;> rfl

/-- A gas channel's first sample is held with the levels judged by it, or faults the channel (R120, R121, R136). -/
theorem startedGas_of_sound {s : State} {c : GasConfig} {n : Nat} (h : n ≤ c.fullScale) : startedGas s c (some n) =
    { last := .value n, fault := false, clearRun := 0
      action := judgeLevel s.cfg.air.assertWindow s.cfg.air.clearWindow c.action c.band n ⟨false, 0⟩
      critical := judgeLevel s.cfg.air.assertWindow s.cfg.air.clearWindow c.critical c.band n ⟨false, 0⟩
      nextSample := s.clock + 500 } := by
  rw [startedGas, takeSample_of_sound h]
  rfl

theorem startedGas_of_faulty {s : State} {c : GasConfig} {sample : Option Nat} (h : ∀ n, sample = some n → c.fullScale < n) :
    startedGas s c sample =
      { last := .faulty, fault := true, clearRun := 0, action := ⟨false, 0⟩, critical := ⟨false, 0⟩
        nextSample := s.clock + 500 } := by
  rw [startedGas, takeSample_of_faulty h]
  rfl

/-- The station with the start block's readings taken and the view table set up (R174 steps 2 to 5). -/
def readStart (r : StartReading) (s : State) : State :=
  (s.setStart (startedBlock r s)).setView (startedView (s.setStart (startedBlock r s)))

/-- The silent causes found: the timebase's own, a DEFAULTED outcome and STRAP_RANGE (R36). -/
theorem readStart_causes (r : StartReading) (s : State) : (readStart r s).view.causes =
    let outcome := startOutcome r.image r.straps.toNat
    { duplicate := false, timebase := s.view.timebaseLost
      defaulted := decide (outcome = .noAnswer ∨ outcome = .sum ∨ outcome = .format)
      strapRange := decide (outcome = .strapRange) } := by
  dsimp only
  rw [← isDefaulted_eq]
  rfl

/-- What a start sequence finds, block by block, before the heat unit forms its setpoint (R174 step 6). -/
def foundBlocks (r : StartReading) (s : State) : State :=
  let u := readStart r s
  { u with
    line := startedLine u
    view := { u.view with
      link := if u.view.causes.isEmpty then .listen else .silent
      listenDue := if u.view.causes.isEmpty then some (s.clock + 3 * (configFor r.image).header.interval) else none }
    shift := startedShift r u, traffic := startedTraffic r u, lighting := startedLighting r u
    doors := startedDoors r u, heat := startedHeat r u, air := startedAir r u, overrides := startedOverrides r
    alarms := Alarms.initial, alloc := startedAlloc u }

theorem startedHeat_eq (r : StartReading) (s : State) : startedHeat r s = { Heat.initial with
    last := heldReading r.temperature, fault := decide (heldReading r.temperature = none)
    freeze := (heldReading r.temperature).elim false fun x => decide (x < s.cfg.heat.criticalLow)
    overheat := (heldReading r.temperature).elim false fun x => decide (s.cfg.heat.high < x)
    stages := List.replicate s.cfg.heat.stages.length (freshStage s.clock), nextReading := s.clock + 1000 } := by
  rw [startedHeat, takeReading_first]
  · rfl
  · rfl

theorem startedBlocks_eq (r : StartReading) (s : State) : startedBlocks r s =
    withFirstSetpoint (foundBlocks r s) ((List.range (configFor r.image).heat.stages.length).map fun k =>
      firstStage s.clock (firstCall (foundBlocks r s) k) (firstTier (foundBlocks r s) k)) := by
  have hfound : startedBlocks r s = reformHeat (foundBlocks r s) := by
    rw [startedBlocks, firstLink_eq rfl rfl rfl rfl]
    rfl
  rw [hfound]
  refine reformHeat_fresh ?_ rfl rfl rfl
  have hheat : (foundBlocks r s).heat.stages = (startedHeat r (readStart r s)).stages := rfl
  rw [hheat, startedHeat_eq]
  rfl

/-! ## The statement -/

/-- CONFIG_DEFAULTED is active exactly with one of its two silent causes (R36, R149). -/
theorem EventFrame.config_defaulted {before s t : State} (h : EventFrame before s t) :
    conditionSet t.alarms.active 13 = true ↔ s.view.causes.defaulted = true ∨ s.view.causes.strapRange = true := by
  rw [h.condition (by decide), ← h.view]
  exact Bool.or_eq_true_iff

/-- FORCED_OUTPUT is active exactly where a channel's mode forces it (R80, R149). -/
theorem EventFrame.forced_output {before s t : State} (h : EventFrame before s t) :
    conditionSet t.alarms.active 14 = true ↔
      ∃ k ∈ s.start.config.lighting.channels, k.mode = .offForced ∨ k.mode = .fullForced := by
  have hcause : conditionSet t.alarms.active 14 = forcedOutput t.start.config := h.condition (by decide)
  rw [hcause, h.start]
  simp [forcedOutput]

/-- A stage's first call: the held reading lies below the setpoint by more than the stage's threshold (R112). -/
theorem judgedCall_first (c : HeatConfig) (reading : Option Int) (e : Int) (k : Nat) :
    judgedCall c (decide (reading = none)) reading e k false =
      reading.elim false fun x => decide ((k * c.spacing : Nat) < e - x) := by
  cases reading with
  | none => rfl
  | some x => simp [judgedCall, judgeCall_eq]

/-- Every configured door begins settling, with its inputs' first raw samples (R93, R104). -/
theorem startedDoors_getElem? {r : StartReading} {s : State} {i : Nat} {d : Door} (h : (startedDoors r s).records[i]? = some d) :
    d = freshDoor s.clock (r.contacts.toList.getD i false) (r.trailers.toList.getD i false) s.doors.records[i]? := by
  obtain ⟨_, rfl⟩ := List.getElem?_eq_some_iff.mp h
  simp [startedDoors]

/-- Settles O31: the end of the event follows the blocks of `startedBlocks_eq`, each as its own lemma gives it. -/
theorem startSequenceEnd : Obligations.StartSequenceEnd := by
  intro r s hrun c own outcome lost faulty quiet entry fan start page reading freeze overheat call tier level channel co no2
  have hexec : exec (.startSequenceEnd r) s = .next (endStart r s) :=
    congrArg Host.Outcome.next (if_neg (by simp [hrun]))
  have hend : EventFrame (startedBlocks r s) (startedBlocks r s) (endStart r s) := finish_frame _ _ _
  have hgrants : GrantsFormed (startedBlocks r s) (endStart r s) := finish_grants _ _ _ (.inl (workFor_recompute _ _))
  rw [startedBlocks_eq] at hend hgrants
  have hcauses := readStart_causes r s
  have htraffic := startedTraffic_eq r (readStart r s)
  have hreading : heldReading r.temperature = reading := by
    cases h : r.temperature with
    | none => simp [reading, h, heldReading]
    | some x => simp [reading, h, heldReading, Option.filter]
  have hfreeze : (reading.elim false fun x => decide (x < c.heat.criticalLow)) = freeze := by
    simp only [freeze]
    cases reading <;> rfl
  have hoverheat : (reading.elim false fun x => decide (c.heat.high < x)) = overheat := by
    simp only [overheat]
    cases reading <;> rfl
  have hheat : (foundBlocks r s).heat = { Heat.initial with
      last := reading, fault := decide (reading = none), freeze := freeze, overheat := overheat
      stages := List.replicate c.heat.stages.length (freshStage s.clock), nextReading := s.clock + 1000 } := by
    rw [← hfreeze, ← hoverheat, ← hreading]
    exact startedHeat_eq r (readStart r s)
  have hcall (k : Nat) : firstCall (foundBlocks r s) k = call k := by
    rw [firstCall, hheat]
    refine (judgedCall_first c.heat reading page.unoccupied k).trans ?_
    simp only [call]
    cases reading <;> rfl
  have htier (k : Nat) : firstTier (foundBlocks r s) k = tier k := by
    rw [firstTier, hcall, hheat]
    simp only [tier, decide_eq_true_eq]
    rfl
  have hgas (k : GasConfig) (sample : Option Nat) : startedGas (readStart r s) k sample = channel k sample := by
    cases sample with
    | none => exact startedGas_of_faulty nofun
    | some n =>
      by_cases hfull : n ≤ k.fullScale
      · rw [startedGas_of_sound hfull, judgeLevel_first, judgeLevel_first]
        exact (if_pos hfull).symm
      · rw [startedGas_of_faulty fun m hm => by cases hm; omega]
        exact (if_neg hfull).symm
  have hco : startedGas (readStart r s) c.air.co r.co = co := hgas _ _
  have hno2 : startedGas (readStart r s) c.air.no2 r.no2 = no2 := hgas _ _
  refine ⟨_, _, hexec, hend, hgrants, ?defaulted, hend.forced_output, rfl, rfl, rfl, rfl, ?view, rfl,
    congrArg Traffic.gate htraffic, congrArg Traffic.count htraffic, congrArg Traffic.uncertain htraffic,
    congrArg Traffic.gateCount htraffic, congrArg Traffic.lowerSeen htraffic, congrArg Traffic.position htraffic,
    congrArg Traffic.invalid htraffic, congrArg Traffic.beamA htraffic, congrArg Traffic.beamB htraffic,
    congrArg Traffic.tracking htraffic, congrArg Traffic.zones htraffic, rfl, ⟨?doors, rfl, rfl, rfl, fun i d hd => ?door⟩, ?heat,
    ⟨hco, hno2, ?gasClass, rfl, rfl, rfl⟩, rfl, rfl, rfl⟩
  case defaulted =>
    refine hend.config_defaulted.trans (or_congr ?_ ?_)
    · exact Iff.of_eq (congrArg (fun k => SilentCauses.defaulted k = true) hcauses)
    · exact (Iff.of_eq (congrArg (fun k => SilentCauses.strapRange k = true) hcauses)).trans decide_eq_true_iff
  case view =>
    have hquiet : (readStart r s).view.causes.isEmpty = !quiet := by
      rw [hcauses]
      rfl
    change { (readStart r s).view with
      link := if (readStart r s).view.causes.isEmpty then .listen else .silent
      causes := (readStart r s).view.causes
      listenDue := if (readStart r s).view.causes.isEmpty then some (s.clock + 3 * c.header.interval) else none } = _
    rw [hquiet, hcauses]
    cases quiet <;> rfl
  case doors => exact (List.length_map _).trans List.length_range
  case door =>
    obtain rfl := startedDoors_getElem? hd
    exact ⟨rfl, rfl, rfl⟩
  case heat =>
    simp only [withFirstSetpoint, State.setHeat_heat, hcall, htier, hheat]
    rfl
  case gasClass =>
    rw [← hco, ← hno2]
    exact higherClass_eq _ _

end Sys2Proof.Machine
end

section
/-! SUPPORT. Proof of O27: the length of every record body, the places of the load list in the LOADS record, and the bodies byte by
byte (R179, R180, Tables 50 and 51). -/

namespace Sys2Proof.Machine

/-! ## Lengths -/

@[simp] theorem bytes16_length (n : Nat) : (bytes16 n).length = 2 := rfl
@[simp] theorem bytes24_length (n : Nat) : (bytes24 n).length = 3 := rfl
@[simp] theorem bytes32_length (n : Nat) : (bytes32 n).length = 4 := rfl
@[simp] theorem halfBytes_length (h : Half) : (halfBytes h).length = 2 := rfl
@[simp] theorem signedBytes_length (i : Int) : (signedBytes i).length = 2 := rfl

@[simp] theorem temperatureBytes_length (t : Option Int) : (temperatureBytes t).length = 2 := by cases t <;> rfl

@[simp] theorem effectBytes_length (e : Effect) : (effectBytes e).length = 4 := by cases e <;> rfl

/-- An optional timer in a fixed number of bytes (Table 51). -/
theorem getD_length {timer : Option Nat} {f : Nat → List Byte} {absent : List Byte} {n : Nat} (hf : ∀ t, (f t).length = n)
    (habsent : absent.length = n) : ((timer.map f).getD absent).length = n := by
  cases timer with
  | none => exact habsent
  | some t => exact hf t

@[simp] theorem beaconBytes_length (f : BeaconFields) (alarms : Half) : (beaconBytes f alarms).length = 24 := by
  simp [beaconBytes]

@[simp] theorem overrideBytes_length (now : Nat) (e : OverrideEntry) : (overrideBytes now e).length = 10 := by
  have hexpiry : ((e.expiry.map fun t => bytes24 (secondsOf (t - now))).getD [0xFF, 0xFF, 0xFF]).length = 3 :=
    getD_length (fun _ => rfl) rfl
  simp only [overrideBytes, List.length_append, List.length_cons, List.length_nil, effectBytes_length, hexpiry]

theorem entryBody_length_le (now : Nat) (e : PeerEntry) : (entryBody now e).length ≤ 27 := by
  unfold entryBody
  split
  · simp
  · cases e.alarms <;> simp

theorem peerBody_length_le (n : Nat) (s : State) : (peerBody n s).length ≤ 27 := by
  unfold peerBody
  split_ifs
  · simp
  · simp [ownBeaconBytes]
  · exact entryBody_length_le _ _

theorem shiftBody_length_le (s : State) : (shiftBody s).length ≤ 18 := by
  unfold shiftBody
  split <;> simp

theorem shiftDoorBody_length_le (d : Door) (past : Option (Nat × Nat)) : (shiftDoorBody d past).length ≤ 13 := by
  unfold shiftDoorBody
  split <;> simp

theorem doorBody_length (now : Nat) (d : Door) (dock : DockLight) : (doorBody now d dock).length = 17 := by
  have hopen : ((d.openSince.map fun t => bytes32 (secondsOf (now - t))).getD [0xFF, 0xFF, 0xFF, 0xFF]).length = 4 :=
    getD_length (fun _ => rfl) rfl
  have hhold : ((d.holdSince.map fun t => bytes16 (secondsOf (now - t))).getD [0xFF, 0xFF]).length = 2 :=
    getD_length (fun _ => rfl) rfl
  simp only [doorBody, List.length_append, List.length_cons, List.length_nil, bytes16_length, bytes32_length, hopen, hhold]

theorem overridesBody_length (now : Nat) (stack : List OverrideEntry) : (overridesBody now stack).length = 1 + 10 * stack.length := by
  have hentries : (stack.flatMap (overrideBytes now)).length = 10 * stack.length := by
    rw [List.length_flatMap, List.map_congr_left fun e _ => overrideBytes_length now e]
    simp [Nat.mul_comm]
  rw [overridesBody, List.length_append, hentries]
  rfl

theorem placeBodies_lengths (s : State) : ∀ body ∈ placeBodies s, body.length = 7 := by
  have hzip {α β : Type} {f : α → β → List Byte} (hf : ∀ a b, (f a b).length = 7) (as : List α) (bs : List β) :
      ∀ body ∈ List.zipWith f as bs, body.length = 7 := by
    intro body hbody
    rw [← List.map_uncurry_zip_eq_zipWith] at hbody
    obtain ⟨p, -, rfl⟩ := List.mem_map.mp hbody
    exact hf _ _
  simp only [placeBodies, List.mem_append, or_imp, forall_and]
  exact ⟨⟨⟨⟨hzip (fun _ _ => rfl) _ _, hzip (fun _ _ => rfl) _ _⟩, by simp [placeBody]⟩, hzip (fun _ _ => rfl) _ _⟩,
    hzip (fun _ _ => rfl) _ _⟩

/-- No body is longer than the OVERRIDES of a full stack (R180). -/
theorem recordBody_length_le {s : State} (h : StacksOk s) {kind index : Nat} {body : List Byte}
    (hbody : recordBody kind index s = some body) : body.length ≤ 41 := by
  have hstack {stack : List OverrideEntry} (hok : StackOk stack) : (overridesBody s.clock stack).length ≤ 41 := by
    rw [overridesBody_length]
    have := hok.room
    omega
  unfold recordBody at hbody
  split at hbody
  · split_ifs at hbody
    cases hbody
    simp [statusBody]
  · split_ifs at hbody
    cases hbody
    exact (peerBody_length_le _ s).trans (by decide)
  · split_ifs at hbody
    · cases hbody
      exact (shiftBody_length_le s).trans (by decide)
    · obtain ⟨d, -, rfl⟩ := Option.map_eq_some_iff.mp hbody
      exact (shiftDoorBody_length_le d _).trans (by decide)
  · split_ifs at hbody
    obtain ⟨d, -, rfl⟩ := Option.map_eq_some_iff.mp hbody
    rw [doorBody_length]
    decide
  · obtain ⟨stack, hstackOf, rfl⟩ := Option.map_eq_some_iff.mp hbody
    unfold stackOfIndex at hstackOf
    split at hstackOf <;> cases hstackOf
    · exact hstack h.light
    · exact hstack h.heat
    · exact hstack h.vent
  · split_ifs at hbody
    · cases hbody
      simp [loadsBody, grantBytes]
    · rw [placeBodies_lengths s body (List.mem_of_getElem? hbody)]
      decide
  · cases hbody

/-- A REPLY has a payload length the line accepts: the four bytes before its body, and the body (R179, Table 6). -/
theorem answerTo_length {s : State} (h : StacksOk s) (sender : Station) (p : Vector Byte 3) :
    lengthAccepted kindReply (bulletinBytes (answerTo sender p s)).length = true := by
  have hbody : ((recordBody p[1].toNat p[2].toNat s).getD []).length ≤ 41 := by
    cases hr : recordBody p[1].toNat p[2].toNat s with
    | none => exact Nat.zero_le _
    | some body => exact recordBody_length_le h hr
  rw [answerTo_eq]
  simp only [bulletinBytes, lengthAccepted, kindReply, List.length_append, List.length_cons, List.length_nil, decide_eq_true_eq]
  omega

/-! ## The places of the load list -/

/-- The seven bytes of a place (R180, assumption log 14). -/
def placeBytes (kind : Byte) (record : Option (Tier × Nat)) (granted present source state : Nat) : List Byte :=
  [kind, match record with | some r => byteOf (128 + r.1.val) | none => 0, match record with | some r => byteOf r.2 | none => 0,
    byteOf granted, byteOf present, byteOf source, byteOf state]

theorem placeBody_eq (kind : Nat) (l : Load) (b5 b6 : Nat) : placeBody kind l b5 b6 =
    placeBytes (byteOf kind) (l.demand.map fun d => (d.tier, d.setting)) l.granted l.present b5 b6 := by
  unfold placeBody placeBytes
  cases l.demand <;> rfl

/-- A place shows nothing of its load's configuration: with as many records as configured loads, the records alone give them. -/
theorem zipWith_eq_map {α β γ : Type} {f : α → β → γ} {g : β → γ} (h : ∀ a b, f a b = g b) (as : List α) (bs : List β)
    (hlen : as.length = bs.length) : List.zipWith f as bs = bs.map g := by
  rw [show f = fun _ b => g b from funext fun a => funext fun b => h a b, ← List.map_uncurry_zip_eq_zipWith]
  calc (as.zip bs).map (Function.uncurry fun _ b => g b) = ((as.zip bs).map Prod.snd).map g := by rw [List.map_map]; rfl
    _ = bs.map g := by rw [List.map_snd_zip (by omega)]

/-- A channel's place (Table 38, kind 0). -/
def channelPlace (c : Channel) : List Byte := placeBytes 0 (c.tier.map fun t => (t, c.desired)) c.granted c.present 0 0

/-- A dock light's place (kind 1). -/
def dockPlace (d : DockLight) : List Byte :=
  placeBytes 1 (if d.demanded then some (1, 1) else none) (if d.granted then 1 else 0) (if d.output then 1 else 0) 0 0

/-- A fan's place (kind 2). -/
def fanPlace (f : Fan) : List Byte :=
  placeBytes 2 (if f.desired = 0 then none else f.tier.map fun t => (t, f.desired)) f.granted f.present (fanSourceCode f.source)
    (weight (f.requested = .exhaust) 128 + fanStateCode f.state * 16
      + (match f.direction with | some .supply => 0 | some .exhaust => 1 | none => 2) * 4)

/-- A curtain's place (kind 3). -/
def curtainPlace (d : Door) : List Byte :=
  placeBytes 3 (if d.curtainDemanded then some (1, 1) else none) (if d.curtainGranted then 1 else 0) (if d.curtainOn then 1 else 0)
    0 0

/-- A heater stage's place (kind 4). -/
def stagePlace (st : Stage) : List Byte :=
  placeBytes 4 (if st.demand = .none then none else st.tier.map fun t => (t, 1)) (if st.granted then 1 else 0)
    (if st.on then 1 else 0) (stageDemandCode st.demand) 0

theorem fanPlace_eq (c : FanConfig) (f : Fan) : placeBody 2 (fanLoad c f) (fanSourceCode f.source) (fanByte f) = fanPlace f := by
  have hdirection : fanDirCode f.direction =
      match f.direction with | some .supply => 0 | some .exhaust => 1 | none => 2 := by
    match f.direction with
    | some .supply => rfl
    | some .exhaust => rfl
    | none => rfl
  rw [placeBody_eq, fanLoad, fanPlace, fanByte, hdirection]
  by_cases hzero : f.desired = 0
  · rw [if_pos hzero, if_pos hzero]
    rfl
  · rw [if_neg hzero, if_neg hzero]
    cases f.tier <;> rfl

/-- The places in the order of Table 38. -/
theorem placeBodies_eq {s : State} (hrun : s.start.running = true) (h : ShapeOk s) : placeBodies s =
    s.lighting.channels.map channelPlace ++ s.lighting.docks.map dockPlace ++ [fanPlace s.air.fan1, fanPlace s.air.fan2]
      ++ s.doors.records.map curtainPlace ++ s.heat.stages.map stagePlace := by
  have hchannels : s.cfg.lighting.channels.length = s.lighting.channels.length := h.channelConfigs.trans h.channels.symm
  have hdocks : s.cfg.doors.docks.length = s.lighting.docks.length := h.doorConfigs.trans (h.docks hrun).symm
  have hdoors : s.cfg.doors.curtains.length = s.doors.records.length := (h.doors hrun).symm
  have hstages : s.cfg.heat.stages.length = s.heat.stages.length := (h.stages hrun).symm
  rw [placeBodies, fanPlace_eq, fanPlace_eq, zipWith_eq_map (g := channelPlace) ?_ _ _ hchannels,
    zipWith_eq_map (g := dockPlace) ?_ _ _ hdocks, zipWith_eq_map (g := curtainPlace) ?_ _ _ hdoors,
    zipWith_eq_map (g := stagePlace) ?_ _ _ hstages]
  · intro c st
    rw [placeBody_eq, stageLoad, stagePlace, toNat_eq_flag, toNat_eq_flag]
    cases st.demand <;> cases st.tier <;> rfl
  · intro c d
    rw [placeBody_eq, curtainLoad, curtainPlace, toNat_eq_flag, toNat_eq_flag]
    cases d.curtainDemanded <;> rfl
  · intro c d
    rw [placeBody_eq, dockLoad, dockPlace, toNat_eq_flag, toNat_eq_flag]
    cases d.demanded <;> rfl
  · intro c ch
    rw [placeBody_eq, channelLoad, channelPlace]
    cases ch.tier <;> rfl

section Places

variable {s : State} (hrun : s.start.running = true) (h : ShapeOk s)

include hrun h

/-- The LOADS record of each place, by the place's index (R180, Table 38). -/
theorem recordBody_places :
    (∀ (i : Nat) (c : Channel), s.lighting.channels[i]? = some c → recordBody 5 (1 + i) s = some (channelPlace c)) ∧
    (∀ (i : Nat) (d : DockLight), s.lighting.docks[i]? = some d → recordBody 5 (5 + i) s = some (dockPlace d)) ∧
    recordBody 5 (5 + s.cfg.doorCount) s = some (fanPlace s.air.fan1) ∧
    recordBody 5 (6 + s.cfg.doorCount) s = some (fanPlace s.air.fan2) ∧
    (∀ (i : Nat) (d : Door), s.doors.records[i]? = some d → recordBody 5 (7 + s.cfg.doorCount + i) s = some (curtainPlace d)) ∧
    (∀ (i : Nat) (st : Stage), s.heat.stages[i]? = some st →
      recordBody 5 (7 + 2 * s.cfg.doorCount + i) s = some (stagePlace st)) := by
  have hplace {pre seg : List (List Byte)} (post : List (List Byte)) (hsplit : placeBodies s = pre ++ seg ++ post) {n i : Nat}
      (hn : n = pre.length + i + 1) {body : List Byte} (hbody : seg[i]? = some body) : recordBody 5 n s = some body := by
    subst hn
    have hrecord : recordBody 5 (pre.length + i + 1) s = (placeBodies s)[pre.length + i]? := rfl
    rw [hrecord, hsplit]
    exact getElem?_segment post hbody
  have hmap {α : Type} {f : α → List Byte} {l : List α} {i : Nat} {x : α} (hx : l[i]? = some x) :
      (l.map f)[i]? = some (f x) := by rw [List.getElem?_map, hx, Option.map_some]
  have hall := placeBodies_eq hrun h
  have hchannels : (s.lighting.channels.map channelPlace).length = 4 := (List.length_map _).trans h.channels
  have hdocks : (s.lighting.docks.map dockPlace).length = s.cfg.doorCount := (List.length_map _).trans (h.docks hrun)
  have hdoors : (s.doors.records.map curtainPlace).length = s.cfg.doorCount := (List.length_map _).trans (h.doors hrun)
  refine ⟨fun i c hc => hplace (pre := []) _ (by simpa only [List.append_assoc, List.nil_append] using hall) ?_ (hmap hc),
    fun i d hd => hplace (pre := s.lighting.channels.map channelPlace) _ (by simpa only [List.append_assoc] using hall) ?_
      (hmap hd),
    hplace (pre := s.lighting.channels.map channelPlace ++ s.lighting.docks.map dockPlace)
      (seg := [fanPlace s.air.fan1, fanPlace s.air.fan2]) (i := 0) _ (by simpa only [List.append_assoc] using hall) ?_ rfl,
    hplace (pre := s.lighting.channels.map channelPlace ++ s.lighting.docks.map dockPlace)
      (seg := [fanPlace s.air.fan1, fanPlace s.air.fan2]) (i := 1) _ (by simpa only [List.append_assoc] using hall) ?_ rfl,
    fun i d hd => hplace (pre := s.lighting.channels.map channelPlace ++ s.lighting.docks.map dockPlace ++
      [fanPlace s.air.fan1, fanPlace s.air.fan2]) _ hall ?_ (hmap hd),
    fun i st hst => hplace (pre := s.lighting.channels.map channelPlace ++ s.lighting.docks.map dockPlace ++
      [fanPlace s.air.fan1, fanPlace s.air.fan2] ++ s.doors.records.map curtainPlace) [] (by rw [hall, List.append_nil]) ?_
      (hmap hst)⟩
  all_goals
    simp only [List.length_append, List.length_cons, List.length_nil, hchannels, hdocks, hdoors]
    omega

end Places

/-! ## The bodies byte by byte -/

/-- Four bytes are two fields of two bytes (R181). -/
theorem bytes32_eq (n : Nat) : bytes32 n = bytes16 (n / 65536) ++ bytes16 n := by
  rw [bytes32, bytes16, bytes16, Nat.div_div_eq_div_mul]
  rfl

theorem statusBody_eq (s : State) : statusBody s =
    [byteOf (weight (s.start.cause = .restart) 128 + outcomeCode s.start.outcome), byteOf s.own, byteOf s.nCfg,
      byteOf (linkCode s.view.link * 64 + weight s.view.causes.duplicate 32 + weight s.view.causes.timebase 16
        + weight s.view.causes.defaulted 8 + weight s.view.causes.strapRange 4 + weight s.view.timebaseLost 1),
      s.shift.epoch.getD 0, byteOf (shiftByte s.shift.epoch.isSome s.shift.phase s.shift.page.val), byteOf s.traffic.count,
      byteOf (weight s.traffic.uncertain 128 + gateCode s.traffic.gate * 16 + gasCode s.air.gasClass * 4
        + bayCode s.lighting.bay)]
    ++ (match s.heat.last with | some t => bytes16 (t % 65536).toNat | none => [0x80, 0x00])
    ++ bytes16 s.alarms.active.toNat ++ bytes16 s.alarms.latched.toNat := by
  have hcauses (n : Nat) (c : SilentCauses) : n + causeBits c =
      n + weight c.duplicate 32 + weight c.timebase 16 + weight c.defaulted 8 + weight c.strapRange 4 := by
    simp only [causeBits, Nat.add_assoc]
  have htemperature : temperatureBytes s.heat.last =
      match s.heat.last with | some t => bytes16 (t % 65536).toNat | none => [0x80, 0x00] := by
    cases s.heat.last with
    | some t => exact signedBytes_eq_bytes16 t
    | none => rfl
  rw [statusBody, hcauses, htemperature, halfBytes_eq_bytes16, halfBytes_eq_bytes16]
  rfl

/-- The body of another station's entry, by what is known of it (Table 50). -/
theorem entryBody_eq (now : Nat) (e : PeerEntry) : entryBody now e =
    match e.beacon with
    | some f => [byteOf (weight e.alarms.isSome 128 + entryCode e.state)] ++ bytes16 (min 65535 (now - e.heardAt))
        ++ beaconBytes f (e.alarms.getD 0)
    | none => [byteOf (weight e.alarms.isSome 128 + entryCode e.state)]
        ++ (match e.alarms with | some a => bytes16 a.toNat | none => []) := by
  unfold entryBody
  cases e.beacon with
  | some f => rfl
  | none => cases e.alarms with
    | some a => rw [Option.map_some, halfBytes_eq_bytes16]; rfl
    | none => rfl

/-- The PEER record of every station number (R179, Table 45). -/
theorem recordBody_peer (s : State) {n : Nat} (hn : n < 32) : recordBody 1 n s = some (
    if s.nCfg ≤ n then [0]
    else if n = s.own then [0x84, 0, 0] ++ ownBeaconBytes s
    else
      let e := s.view.entries.getD n PeerEntry.empty
      match e.beacon with
      | some f => [byteOf (weight e.alarms.isSome 128 + entryCode e.state)] ++ bytes16 (min 65535 (s.clock - e.heardAt))
          ++ beaconBytes f (e.alarms.getD 0)
      | none => [byteOf (weight e.alarms.isSome 128 + entryCode e.state)]
          ++ (match e.alarms with | some a => bytes16 a.toNat | none => [])) := by
  rw [recordBody, if_pos hn, peerBody, entryBody_eq]
  rfl

theorem shiftBody_eq (s : State) : shiftBody s =
    bytes16 (s.shift.energy / 65536) ++ bytes16 s.shift.energy ++ bytes16 s.shift.peak ++ bytes16 s.shift.crossings ++
      match s.shift.summary with
      | some m => [1, m.epoch] ++ (bytes16 (m.energy / 65536) ++ bytes16 m.energy) ++ bytes16 m.peak ++ bytes16 m.crossings
      | none => [0] := by
  unfold shiftBody
  cases s.shift.summary with
  | some m => simp only [bytes32_eq]
  | none => simp only [bytes32_eq]

theorem shiftDoorBody_eq (d : Door) (past : Option (Nat × Nat)) : shiftDoorBody d past =
    bytes16 d.cycles ++ (bytes16 (d.openSeconds / 65536) ++ bytes16 d.openSeconds) ++
      match past with
      | some p => [1] ++ bytes16 p.1 ++ (bytes16 (p.2 / 65536) ++ bytes16 p.2)
      | none => [0] := by
  unfold shiftDoorBody
  cases past with
  | some p => simp only [bytes32_eq]
  | none => simp only [bytes32_eq]

/-- The code of a debounced input (Table 51). -/
theorem levelCode_eq (level : Option Bool) :
    levelCode level = match level with | some false => 0 | some true => 1 | none => 3 := by
  match level with
  | some false => rfl
  | some true => rfl
  | none => rfl

theorem doorBody_eq (now : Nat) (d : Door) (dock : DockLight) : doorBody now d dock =
    [byteOf (weight d.settling 128 + doorCode d.state),
      byteOf ((match d.contact.level with | some false => 0 | some true => 1 | none => 3) * 64
        + (match d.trailer.level with | some false => 0 | some true => 1 | none => 3) * 16)]
    ++ (match d.openSince with
      | some t => bytes16 ((now - t) / 1000 / 65536) ++ bytes16 ((now - t) / 1000)
      | none => [0xFF, 0xFF, 0xFF, 0xFF])
    ++ (match d.holdSince with | some t => bytes16 ((now - t) / 1000) | none => [0xFF, 0xFF])
    ++ [byteOf d.chatter.length, match d.stableSince with | some t => byteOf ((now - t) / 1000) | none => 0xFF,
        byteOf (weight d.curtainDemanded 128 + weight d.curtainGranted 64 + weight d.curtainOn 32 + weight dock.output 16)]
    ++ bytes16 d.cycles ++ (bytes16 (d.openSeconds / 65536) ++ bytes16 d.openSeconds) := by
  have hopen : ((d.openSince.map fun t => bytes32 (secondsOf (now - t))).getD [0xFF, 0xFF, 0xFF, 0xFF]) =
      match d.openSince with
      | some t => bytes16 ((now - t) / 1000 / 65536) ++ bytes16 ((now - t) / 1000)
      | none => [0xFF, 0xFF, 0xFF, 0xFF] := by
    cases d.openSince with
    | some t => exact bytes32_eq _
    | none => rfl
  have hhold : ((d.holdSince.map fun t => bytes16 (secondsOf (now - t))).getD [0xFF, 0xFF]) =
      match d.holdSince with | some t => bytes16 ((now - t) / 1000) | none => [0xFF, 0xFF] := by
    cases d.holdSince <;> rfl
  have hstable : (d.stableSince.map fun t => byteOf (secondsOf (now - t))).getD 0xFF =
      match d.stableSince with | some t => byteOf ((now - t) / 1000) | none => 0xFF := by
    cases d.stableSince <;> rfl
  rw [doorBody, hopen, hhold, hstable, bytes32_eq, levelCode_eq, levelCode_eq]

theorem overrideBytes_eq (now : Nat) (e : OverrideEntry) : overrideBytes now e =
    [match e.source with | .changeover => 0 | .directive => 1 | .manual => 2,
      match e.origin with | some o => byteOf o.toNat | none => 0xFF, byteOf e.precedence]
    ++ (match e.effect with
      | .level percent channels => [0, byteOf percent, byteOf channels.toNat, 0]
      | .setpoint t => 1 :: bytes16 (t % 65536).toNat ++ [0]
      | .boost delta => [2, byteOf delta, 0, 0]
      | .hold => [3, 0, 0, 0]
      | .purge dir speed => [4, if dir = .supply then 0 else 1, byteOf speed, 0]
      | .stop => [5, 0, 0, 0])
    ++ (match e.expiry with
      | some t => byteOf ((t - now) / 1000 / 65536) :: bytes16 ((t - now) / 1000)
      | none => [0xFF, 0xFF, 0xFF]) := by
  have hsource : byteOf (sourceKindCode e.source) =
      match e.source with | .changeover => 0 | .directive => 1 | .manual => 2 := by
    cases e.source <;> rfl
  have horigin : (e.origin.map fun o => byteOf o.toNat).getD 0xFF =
      match e.origin with | some o => byteOf o.toNat | none => 0xFF := by
    cases e.origin <;> rfl
  have hexpiry : (e.expiry.map fun t => bytes24 (secondsOf (t - now))).getD [0xFF, 0xFF, 0xFF] =
      match e.expiry with
      | some t => byteOf ((t - now) / 1000 / 65536) :: bytes16 ((t - now) / 1000)
      | none => [0xFF, 0xFF, 0xFF] := by
    cases e.expiry <;> rfl
  have heffect : effectBytes e.effect =
      match e.effect with
      | .level percent channels => [0, byteOf percent, byteOf channels.toNat, 0]
      | .setpoint t => 1 :: bytes16 (t % 65536).toNat ++ [0]
      | .boost delta => [2, byteOf delta, 0, 0]
      | .hold => [3, 0, 0, 0]
      | .purge dir speed => [4, if dir = .supply then 0 else 1, byteOf speed, 0]
      | .stop => [5, 0, 0, 0] := by
    cases e.effect with
    | setpoint t => rw [effectBytes, signedBytes_eq_bytes16]; rfl
    | purge dir speed => cases dir <;> rfl
    | level | boost | hold | stop => rfl
  rw [overrideBytes, hsource, horigin, hexpiry, heffect]

/-- The DOOR record of a door (R180). -/
theorem recordBody_door {s : State} {n : Nat} {d : Door} {dock : DockLight} (hd : s.doors.records[n]? = some d)
    (hdock : s.lighting.docks[n]? = some dock) : recordBody 3 (n + 1) s = some (doorBody s.clock d dock) := by
  rw [recordBody, if_neg (Nat.succ_ne_zero n), Nat.add_sub_cancel, hd, List.getD_eq_getElem?_getD, hdock]
  rfl

/-- The SHIFT record of a door (R179). -/
theorem recordBody_shiftDoor {s : State} {n : Nat} {d : Door} (hd : s.doors.records[n]? = some d) :
    recordBody 2 (n + 1) s = some (shiftDoorBody d (s.shift.summary.bind fun m => m.doors[n]?)) := by
  rw [recordBody, if_neg (Nat.succ_ne_zero n), Nat.add_sub_cancel, hd]
  rfl

/-- The OVERRIDES of a stack: how many, and each entry's ten bytes (R180). -/
theorem overridesBody_eq (now : Nat) (stack : List OverrideEntry) {f : OverrideEntry → List Byte}
    (hf : ∀ e, overrideBytes now e = f e) : overridesBody now stack = byteOf stack.length :: stack.flatMap f := by
  rw [overridesBody, funext hf]
  rfl

theorem loadsBody_eq (s : State) : loadsBody s =
    bytes16 s.alloc.computed.g1 ++ bytes16 s.alloc.computed.g2 ++ bytes16 s.alloc.computed.g3 ++ bytes16 s.alloc.applied.g1
      ++ bytes16 s.alloc.applied.g2 ++ bytes16 s.alloc.applied.g3 ++ [(if s.alloc.pendingDue = none then 0 else 1 : Byte)]
      ++ bytes16 s.alloc.requests.q0 ++ bytes16 s.alloc.requests.q1 ++ bytes16 s.alloc.requests.q2
      ++ bytes16 s.alloc.requests.q3 ++ bytes16 s.alloc.energised ++ bytes16 s.alloc.reported ++ bytes16 s.alloc.measured
      ++ bytes16 s.alloc.term ++ bytes16 (s.heat.setpoint % 65536).toNat
      ++ [(match s.heat.source with | .occupied => 0 | .unoccupied => 1 | .override => 2 : Byte)]
      ++ bytes16 (s.heat.effective % 65536).toNat := by
  have hpending : byteOf s.alloc.pendingDue.isSome.toNat = if s.alloc.pendingDue = none then 0 else 1 := by
    cases s.alloc.pendingDue <;> rfl
  have hsource : byteOf (setpointCode s.heat.source) =
      match s.heat.source with | .occupied => 0 | .unoccupied => 1 | .override => 2 := by
    cases s.heat.source <;> rfl
  rw [loadsBody, hpending, hsource, signedBytes_eq_bytes16, signedBytes_eq_bytes16]
  simp only [grantBytes, List.append_assoc]

/-- Settles O27. -/
theorem repliesFit : Obligations.RepliesFit := by
  refine ⟨fun s sender p h => answerTo_length h sender p, fun s => ⟨?_, ?_, ?_, ?_, ?_, ?_, ?_, ?_, ?_⟩⟩
  · exact congrArg some (statusBody_eq s)
  · intro n hn
    exact recordBody_peer s hn
  · exact congrArg some (shiftBody_eq s)
  · intro n d hd
    exact ⟨(recordBody_shiftDoor hd).trans (congrArg some (shiftDoorBody_eq d _)), fun dock hdock =>
      (recordBody_door hd hdock).trans (congrArg some (doorBody_eq s.clock d dock))⟩
  · exact congrArg some (overridesBody_eq s.clock _ (overrideBytes_eq s.clock))
  · exact congrArg some (overridesBody_eq s.clock _ (overrideBytes_eq s.clock))
  · exact congrArg some (overridesBody_eq s.clock _ (overrideBytes_eq s.clock))
  · exact congrArg some (loadsBody_eq s)
  · intro hrun h
    exact recordBody_places hrun h

end Sys2Proof.Machine
end

section
/-! SUPPORT. Proof of O1: the command at the front of the queue (assumption log 1). -/

namespace Sys2Proof.Machine

/-- Settles O1. -/
theorem stepRunsFrontCommand : Obligations.StepRunsFrontCommand := by
  intro c rest s hfront
  rw [step, hfront]
  rfl

end Sys2Proof.Machine
end

section
/-! SUPPORT. Proof of O17: what a receiver takes from each field of a BEACON's bytes, as a sender writes it and out of its range
(R181, R182, Table 48). -/

namespace Sys2Proof.Machine

/-! ## Fields of one byte -/

theorem toNat_byteOf {n : Nat} (h : n < 256) : (byteOf n).toNat = n := by
  rw [byteOf, BitVec.toNat_ofNat, Nat.mod_eq_of_lt h]

/-- A flag is taken as it was written where the byte's number has it as its binary digit. -/
theorem getLsbD_byteOf {n i : Nat} {flag : Bool} (hi : i < 8) (h : n / 2 ^ i % 2 = flag.toNat) :
    (byteOf n).getLsbD i = flag := by
  rw [byteOf, BitVec.getLsbD_ofNat, Nat.testBit_eq_decide_div_mod_eq, h]
  cases flag <;> simp [hi]

theorem weight_eq (flag : Bool) (w : Nat) : weight flag w = flag.toNat * w := by
  cases flag <;> simp [weight]

/-! ## Two-byte fields -/

/-- A two-byte field is taken as it was written (R181). -/
theorem half_halfBytes (h : Half) : half (h.extractLsb' 8 8) (h.extractLsb' 0 8) = h := by
  have hlt := h.isLt
  apply BitVec.eq_of_toNat_eq
  rw [half_eq, BitVec.extractLsb'_toNat, BitVec.extractLsb'_toNat, BitVec.toNat_ofNat, Nat.shiftRight_eq_div_pow]
  omega

theorem word16_bytes16 {n : Nat} (h : n < 65536) : word16 (byteOf (n / 256)) (byteOf n) = n := by
  rw [word16_eq, toNat_byteOf (by omega), byteOf, BitVec.toNat_ofNat]
  omega

theorem signed16_signedBytes {i : Int} (hlo : -32768 ≤ i) (hhi : i ≤ 32767) :
    signed16 ((BitVec.ofInt 16 i).extractLsb' 8 8) ((BitVec.ofInt 16 i).extractLsb' 0 8) = i := by
  rw [signed16, half_halfBytes, BitVec.toInt_ofInt_eq_self (by decide) hlo (by omega)]

/-- A temperature in its range is taken as it was written, and so is no reading (R181, R182). -/
theorem temperatureOf_temperatureBytes {t : Option Int} (h : ∀ v, t = some v → -400 ≤ v ∧ v ≤ 600) :
    ∃ hi lo, temperatureBytes t = [hi, lo] ∧ temperatureOf hi lo = t := by
  cases t with
  | none => exact ⟨0x80, 0x00, rfl, by decide⟩
  | some v =>
    have hv := h v rfl
    refine ⟨_, _, rfl, ?_⟩
    rw [temperatureOf, signed16_signedBytes (by omega) (by omega)]
    exact if_pos hv

/-! ## The shift byte -/

section ShiftByte

variable {link : LinkState} {known : Bool} {phase : Phase} {page : BitVec 4}

/-- Byte 2 of a BEACON (Table 48). -/
def linkShiftByte (link : LinkState) (known : Bool) (phase : Phase) (page : BitVec 4) : Nat :=
  linkCode link * 64 + shiftByte known phase page.toNat

theorem linkShiftByte_eq : linkShiftByte link known phase page =
    linkCode link * 64 + (known.toNat * 32 + (decide (phase = .changeover)).toNat * 16 + page.toNat) := by
  rw [linkShiftByte, shiftByte, weight_eq, weight_eq]

theorem linkCode_le (link : LinkState) : linkCode link ≤ 3 := by cases link <;> decide

theorem declaredLink_linkCode (h : link ≠ .silent) : declaredLink (linkCode link) = link := by
  cases link with
  | silent => exact absurd rfl h
  | listen | joined | isolated => rfl

theorem declaredLink_linkShiftByte (h : link ≠ .silent) :
    declaredLink ((byteOf (linkShiftByte link known phase page)).toNat / 64) = link := by
  have hlink := linkCode_le link
  have hknown := known.toNat_le
  have hphase := (decide (phase = .changeover)).toNat_le
  have hcode : (byteOf (linkShiftByte link known phase page)).toNat / 64 = linkCode link := by
    rw [linkShiftByte_eq, toNat_byteOf (by omega)]
    omega
  rw [hcode, declaredLink_linkCode h]

theorem known_linkShiftByte : (byteOf (linkShiftByte link known phase page)).getLsbD 5 = known := by
  have hknown := known.toNat_le
  have hphase := (decide (phase = .changeover)).toNat_le
  apply getLsbD_byteOf (by decide)
  rw [linkShiftByte_eq]
  omega

theorem phase_linkShiftByte :
    (if (byteOf (linkShiftByte link known phase page)).getLsbD 4 then Phase.changeover else .steady) = phase := by
  have hphase := (decide (phase = .changeover)).toNat_le
  have hbit : (byteOf (linkShiftByte link known phase page)).getLsbD 4 = decide (phase = .changeover) := by
    apply getLsbD_byteOf (by decide)
    rw [linkShiftByte_eq]
    omega
  rw [hbit]
  cases phase <;> rfl

theorem page_linkShiftByte : (byteOf (linkShiftByte link known phase page)).extractLsb' 0 4 = page := by
  apply BitVec.eq_of_toNat_eq
  rw [BitVec.extractLsb'_toNat, linkShiftByte_eq, byteOf, BitVec.toNat_ofNat, Nat.shiftRight_zero]
  omega

end ShiftByte

/-! ## The bay summary byte -/

section BaySummary

variable {uncertain available : Bool} {gate : GateStatus} {gas : GasClass} {bay : BayState}

theorem gateOfCode_gateCode (gate : GateStatus) : gateOfCode (gateCode gate) = gate := by cases gate <;> rfl

theorem gasOfCode_gasCode (gas : GasClass) : gasOfCode (gasCode gas) = gas := by cases gas <;> rfl

theorem bayOfCode_bayCode (bay : BayState) : bayOfCode (bayCode bay) = bay := by cases bay <;> rfl

/-- Byte 5 of a BEACON digit by digit (Table 48). -/
theorem baySummaryByte_digits :
    let n := baySummaryByte uncertain available gate gas bay
    n < 256 ∧ n / 2 ^ 7 % 2 = uncertain.toNat ∧ n / 2 ^ 6 % 2 = available.toNat ∧ n / 16 % 4 = gateCode gate ∧
      n / 4 % 4 = gasCode gas ∧ n % 4 = bayCode bay := by
  have huncertain := uncertain.toNat_le
  have havailable := available.toNat_le
  have hgate : gateCode gate ≤ 2 := by cases gate <;> decide
  have hgas : gasCode gas ≤ 2 := by cases gas <;> decide
  have hbay : bayCode bay ≤ 3 := by cases bay <;> decide
  rw [baySummaryByte, weight_eq, weight_eq]
  omega

/-- The fields of byte 5 are taken as they were written. -/
theorem baySummaryByte_taken :
    let b := byteOf (baySummaryByte uncertain available gate gas bay)
    b.getLsbD 7 = uncertain ∧ b.getLsbD 6 = available ∧ gateOfCode (b.toNat / 16 % 4) = gate ∧
      gasOfCode (b.toNat / 4 % 4) = gas ∧ bayOfCode (b.toNat % 4) = bay := by
  intro b
  obtain ⟨hlt, huncertain, havailable, hgate, hgas, hbay⟩ := baySummaryByte_digits (uncertain := uncertain)
    (available := available) (gate := gate) (gas := gas) (bay := bay)
  refine ⟨getLsbD_byteOf (by decide) huncertain, getLsbD_byteOf (by decide) havailable, ?_, ?_, ?_⟩
  · rw [toNat_byteOf hlt, hgate, gateOfCode_gateCode]
  · rw [toNat_byteOf hlt, hgas, gasOfCode_gasCode]
  · rw [toNat_byteOf hlt, hbay, bayOfCode_bayCode]

end BaySummary

/-! ## Clamped numbers -/

theorem interval_taken {ms n : Nat} (hlo : 5 ≤ n) (hhi : n ≤ 50) (h : ms = 100 * n) :
    clampNat 5 50 (byteOf (ms / 100)).toNat * 100 = ms := by
  rw [toNat_byteOf (by omega), clampNat]
  omega

/-- A count up to its bound is taken as it was written. -/
theorem min_byteOf {bound n : Nat} (hbound : bound < 256) (h : n ≤ bound) : min bound (byteOf n).toNat = n := by
  rw [toNat_byteOf (by omega), Nat.min_eq_right h]

theorem netFlow_taken {flow : Int} (hlo : -32767 ≤ flow) (hhi : flow ≤ 32767) :
    max (-32767) (signed16 ((BitVec.ofInt 16 flow).extractLsb' 8 8) ((BitVec.ofInt 16 flow).extractLsb' 0 8)) = flow := by
  rw [signed16_signedBytes (by omega) hhi, max_eq_right hlo]

/-! ## Out of range -/

theorem clampNat_of_lt {lo hi n : Nat} (h : n < lo) : clampNat lo hi n = lo :=
  max_eq_left ((Nat.min_le_right hi n).trans h.le)

theorem clampNat_of_gt {lo hi n : Nat} (hle : lo ≤ hi) (h : hi < n) : clampNat lo hi n = hi := by
  rw [clampNat, Nat.min_eq_left h.le, Nat.max_eq_right hle]

theorem temperatureOf_outOfRange {hi lo : Byte} (h : signed16 hi lo < -400 ∨ 600 < signed16 hi lo) :
    temperatureOf hi lo = none := if_neg (by omega)

/-! ## The statement -/

/-- A beacon taken field by field from the bytes a sender writes, with `hi` and `lo` its temperature's. -/
theorem beaconOf_beaconBytes {f : BeaconFields} {alarms : Half} {hi lo : Byte}
    (htemperature : temperatureBytes f.temperature = [hi, lo]) (h : (beaconBytes f alarms).toArray.size = 24) :
    beaconOf ⟨(beaconBytes f alarms).toArray, h⟩ =
      let b2 := byteOf (linkShiftByte f.link f.epochKnown f.phase f.page)
      let b5 := byteOf (baySummaryByte f.uncertain f.available f.gate f.gas f.bay)
      let flow := BitVec.ofInt 16 f.netFlow
      { sequence := f.sequence
        interval := clampNat 5 50 (byteOf (f.interval / 100)).toNat * 100
        link := declaredLink (b2.toNat / 64), epochKnown := b2.getLsbD 5
        phase := if b2.getLsbD 4 then .changeover else .steady, page := b2.extractLsb' 0 4
        epoch := f.epoch, occupancy := min 15 (byteOf f.occupancy).toNat
        uncertain := b5.getLsbD 7, available := b5.getLsbD 6, gate := gateOfCode (b5.toNat / 16 % 4)
        gas := gasOfCode (b5.toNat / 4 % 4), bay := bayOfCode (b5.toNat % 4)
        gateCount := f.gateCount, temperature := temperatureOf hi lo
        netFlow := max (-32767) (signed16 (flow.extractLsb' 8 8) (flow.extractLsb' 0 8))
        openUnsealed := min 8 (byteOf f.openUnsealed).toNat
        draw := word16 (byteOf (f.draw / 256)) (byteOf f.draw)
        requests := {
          q0 := word16 (byteOf (f.requests.q0 / 256)) (byteOf f.requests.q0)
          q1 := word16 (byteOf (f.requests.q1 / 256)) (byteOf f.requests.q1)
          q2 := word16 (byteOf (f.requests.q2 / 256)) (byteOf f.requests.q2)
          q3 := word16 (byteOf (f.requests.q3 / 256)) (byteOf f.requests.q3) } } := by
  simp only [beaconBytes, htemperature, signedBytes, halfBytes, bytes16, List.cons_append, List.nil_append, beaconOf,
    Vector.getElem_mk, List.getElem_toArray, List.getElem_cons_succ, List.getElem_cons_zero]
  rfl

/-- The summary a beacon carries is taken as it was written. -/
theorem beaconAlarms_beaconBytes {f : BeaconFields} {alarms : Half} (h : (beaconBytes f alarms).toArray.size = 24) :
    beaconAlarms ⟨(beaconBytes f alarms).toArray, h⟩ = alarms := by
  obtain ⟨hi, lo, htemperature⟩ := List.length_eq_two.mp (temperatureBytes_length f.temperature)
  simp only [beaconBytes, htemperature, signedBytes, halfBytes, bytes16, List.cons_append, List.nil_append, beaconAlarms,
    Vector.getElem_mk, List.getElem_toArray, List.getElem_cons_succ, List.getElem_cons_zero, half_halfBytes]

/-- Settles O17: out of range each field's function answers the value of its row of R182; in range a beacon's fields stand in
their own bytes (`beaconOf_beaconBytes`), and each is taken as it was written. -/
theorem beaconFieldsRoundTrip : Obligations.BeaconFieldsRoundTrip := by
  constructor
  · intro p f temperature
    refine ⟨fun h => ?_, fun h => ?_, congrArg declaredLink, ?_, fun h => Nat.min_eq_left h.le, congrArg gateOfCode,
      congrArg gasOfCode, temperatureOf_outOfRange, congrArg (max (-32767)), fun h => Nat.min_eq_left h.le⟩
    · exact congrArg (· * 100) (clampNat_of_lt h)
    · exact congrArg (· * 100) (clampNat_of_gt (by decide) h)
    · exact BitVec.extractLsb'_toNat ..
  · rintro f alarms hlink hoccupancy hdoors ⟨n, hlo, hhi, hinterval⟩ htemperature hflow hflow' hdraw hq0 hq1 hq2 hq3
    obtain ⟨hi, lo, hbytes, htaken⟩ := temperatureOf_temperatureBytes htemperature
    obtain ⟨huncertain, havailable, hgate, hgas, hbay⟩ := baySummaryByte_taken (uncertain := f.uncertain)
      (available := f.available) (gate := f.gate) (gas := f.gas) (bay := f.bay)
    refine ⟨beaconBytes_length f alarms, ?_, beaconAlarms_beaconBytes _⟩
    rw [beaconOf_beaconBytes hbytes]
    dsimp only
    rw [interval_taken hlo hhi hinterval, declaredLink_linkShiftByte hlink, known_linkShiftByte, phase_linkShiftByte,
      page_linkShiftByte, min_byteOf (by decide) hoccupancy, huncertain, havailable, hgate, hgas, hbay, htaken,
      netFlow_taken hflow hflow', min_byteOf (by decide) hdoors, word16_bytes16 hdraw, word16_bytes16 hq0, word16_bytes16 hq1,
      word16_bytes16 hq2, word16_bytes16 hq3]

end Sys2Proof.Machine
end
